-- ==== Sys2Proof/Word.lean ====
section
/-! DEFINITION. The word types of the engine's data (09_cell_arithmetic.md, Tables 9-2 and 9-9). -/

namespace Sys2Proof

/-- A 32-bit word: a binary32 word, a phase, a slot word (R362, R371, R775). -/
abbrev W32 := BitVec 32

/-- A 24-bit fixed-point word of delay memory or of the program input (R365). -/
abbrev W24 := BitVec 24

/-- A byte of the caddy or of a serial frame. -/
abbrev Byte := BitVec 8

/-- A word of the thermos (R104). -/
abbrev W16 := BitVec 16

end Sys2Proof
end

