-- ==== Sys2Proof/Machine/Types.lean ====
section
/-! DEFINITION. The operand types of the commands: what a pin, an edge, a level or a test result looks like when a command
brings it in. Instants are counted in tQ, one sixteenth of a crystal period (R270), from t0. -/

namespace Sys2Proof

/-- The four supplies with a reset detector (R91). -/
inductive Rail where
  | vcore | vio | vana | vpll
deriving DecidableEq, Repr

/-- A rising edge of BCK_IN with the levels it samples (R312) and its instant. -/
structure BckEdge where
  t : Nat
  ws : Bool
  sd0 : Bool
  sd1 : Bool
deriving DecidableEq, Repr

/-- The five conversions of one strap in the B1 burst (R164): voltages in microvolts. -/
structure StrapVolts where
  v0 : Nat
  v1 : Nat
  v2 : Nat
  v3 : Nat
  v4 : Nat
deriving DecidableEq, Repr

/-- The five voltages in the order of the conversions. -/
def StrapVolts.toList (v : StrapVolts) : List Nat := [v.v0, v.v1, v.v2, v.v3, v.v4]

/-- VREFC at each of the twenty conversions of the B1 burst, in microvolts (R214, R921). -/
structure StrapRefs where
  a : StrapVolts
  b : StrapVolts
  c : StrapVolts
  d : StrapVolts
deriving DecidableEq, Repr

/-- One thing that the cell test reads back (R876): a word of local memory (0), the active (1) or the shadow bank (2) after one of the three
patterns with its parity; the result of a vector of Tables 9-5 to 9-7 by its number; or something that only the ROM holds a signature for (a
further vector, the test program, the path of a bus), with whether it equals it. -/
inductive TestRead where
  | word (mem : Fin 3) (i : Fin 1024) (pattern : Fin 3) (got : W32) (parityOk : Bool)
  | vector (n : Fin 28) (got : List W32)
  | signature (equal : Bool)
deriving DecidableEq, Repr

/-- What the calibration of a delay line measures (R652): the codes it writes to registers 0 to 31, the bits that are found flipped when
the registers are read back (register, bit; bit 6 is the parity bit), and how far the measured delay of the reference code lies from one
coarse step, in elements. -/
structure LineCal where
  codes : List (BitVec 6)
  flips : List (Fin 32 × Fin 7)
  dev : Rat
deriving DecidableEq, Repr

/-- What is found when the registers of a line are read back after its calibration: the bits that have flipped, and the deviation of the
reference code in elements (R652). -/
structure LineCheck where
  flips : List (Fin 32 × Fin 7)
  dev : Rat
deriving DecidableEq, Repr

/-- What B6 or B7 measures of one output channel: its two lines, and its comparator offset in microvolts. -/
structure ChannelCal where
  lineA : LineCal
  lineB : LineCal
  offset : Int
deriving DecidableEq, Repr

/-- Bits of tap code registers that have flipped: line 0 or 1, register, bit (bit 6 is the parity bit, R651). -/
abbrev TapFlips := List (Fin 2 × Fin 32 × Fin 7)

/-- What the routine of R653 finds on a channel: the bits of its tap code registers that have flipped, and the deviation of the active line's
reference code from one coarse step, in elements. -/
structure RoutineCheck where
  flips : TapFlips
  dev : Rat
deriving DecidableEq, Repr

/-- A sync candidate that is rejected (R268): its falling and rising edges, and the instant at which a condition of Table 7-2 fails. -/
structure SyncCandidate where
  edges : List Nat
  t : Nat
deriving DecidableEq, Repr

/-- When a character comes (R260, R290): the instant of its start edge, and that of the first rise of RXD after its last sample. -/
structure CharTimes where
  t : Nat
  rise : Nat
deriving DecidableEq, Repr

/-- What every load frame carries beside its payload (Table 17-8): its SEQ byte; and the instant at which it begins. -/
structure LoadHead where
  seq : Byte
  t : Nat
deriving DecidableEq, Repr

/-- One interval of the IR_IN level: asserted (low) or not, and its length in crystal periods (R687). -/
structure IrRun where
  asserted : Bool
  len : Nat
deriving DecidableEq, Repr

/-- The activity by which a flood is declared (R698): the runs of IR_IN since the idle interval, that interval first, and the instant. -/
structure IrActivity where
  runs : List IrRun
  t : Nat
deriving DecidableEq, Repr

/-- The idle interval that ends a flood (R699), and the instant. -/
structure IrIdle where
  idle : IrRun
  t : Nat
deriving DecidableEq, Repr

/-- What a role program puts into an address register and its offset register before an operation (§9.6, R394): base, length, address
and step. -/
structure AddrInit where
  b : Nat
  len : Nat
  a : Nat
  s : Int
deriving DecidableEq, Repr

/-- A datapath operand (R383, R394): an immediate word, a word of the active register bank, a word of local memory at a fixed
index, or at `A j` with or without the post-modify, after the role program has set the register when `init` says so. `bad` says
that the read finds the word's parity bit wrong (R399). -/
inductive Opd where
  | word (w : W32)
  | reg (i : Fin 64) (bad : Bool)
  | mem (i : Fin 1024) (bad : Bool)
  | via (j : Fin 8) (init : Option AddrInit) (post : Bool) (bad : Bool)
deriving DecidableEq, Repr

/-- A result place (R371, R394): the output word of the cell, the shadow bank, local memory, or local memory at `A j`. -/
inductive Dst where
  | out
  | reg (i : Fin 64)
  | mem (i : Fin 1024)
  | via (j : Fin 8) (init : Option AddrInit) (post : Bool)
deriving DecidableEq, Repr

/-- A place of delay memory (R384): at a fixed address, or at `A j`. -/
inductive Place where
  | fixed (n : Fin 262144)
  | via (j : Fin 8) (init : Option AddrInit) (post : Bool)
deriving DecidableEq, Repr

/-- Where an LDX reads (R384): at a fixed address, or at `A j` with or without the post-modify. -/
inductive Spot where
  | fixed (n : Fin 262144)
  | via (j : Fin 8) (post : Bool)
deriving DecidableEq, Repr

/-- The place of an LDX, where the role program has set `A j` first when `init` says so; a fixed address has no register to set. -/
def Spot.place (p : Spot) (init : Option AddrInit) : Place :=
  match p with
  | .fixed n => .fixed n
  | .via j post => .via j init post

/-- A defect that shows in the computation of a frame: a parity error in word `i` of the bank that becomes active, or in the `k`-th word of
what the cell holds for its role (R399, R409; the numbering is the model's, log 94); or a cell that hangs, so that its work for this frame
and the later ones never completes (R880). -/
inductive BadWord where
  | bank (cell : Fin 192) (i : Fin 64)
  | state (cell : Fin 192) (k : Nat)
  | hang (cell : Fin 192)
deriving DecidableEq, Repr

end Sys2Proof
end

