-- ==== Sys2Proof/Syntax.lean ====
section
/-! DEFINITION. The commands of the engine: one constructor for each row of opcode_table.json, in the table's order. An
operand `t` is the instant of the event in tQ from t0; the operands of a timed happening that needs no instant name only
what the engine can see of it. -/

namespace Sys2Proof

/-- The commands. `ch` is a MIDI channel 0 to 15 (part `ch + 1`, R280) or an output channel 0 to 3. -/
inductive Instr where
  -- reset and power
  | resetNFall
  | resetNRise (mode : BitVec 3)
  | powerOnResetRelease (mode : BitVec 3)
  | detectorTrip (rail : Rail)
  | vbakSwitchover
  | vioSwitchover
  | holdLatchSet
  -- kettle
  | crystalValid (t : Nat)
  | crystalLoss (t : Nat)
  | internalReset (t : Nat)
  | internalResetRelease (mode : BitVec 3)
  | crystalStartTimeout (t : Nat)
  | loopStart (t : Nat)
  | lockDeclared (t : Nat)
  | unlockDeclared (t : Nat)
  | loopLockTimeout (t : Nat)
  | relockAccepted (t : Nat)
  | retuneStart
  | unmuteStart
  | trackingSettled
  -- frames and ticks
  | frameStrobe
  | counterTick (pins : BitVec 16)
  | frameComputationStart (bad : List BadWord)
  | frameComputationComplete
  -- bring-up
  | strapBurst (a b c d : StrapVolts) (refs : StrapRefs)
  | directoryCheck
  | thermosStep
  | meadowSelfTest (romOk dmemOk : Bool) (failed : List (Fin 192))
  | delayLineCalibration (first second : ChannelCal)
  | contentScan
  | partPreparation
  | steepLate (t : Nat)
  | chimeEnd
  | conversionComplete (vin : Int) (vref : Nat)
  -- event port
  | receiverArmed (t : Nat)
  | syncCharacter (edges : List Nat) (stopHigh : Bool)
  | syncCandidateRejected (c : SyncCandidate)
  | framingError (t rise : Nat)
  | idleLine (t : Nat)
  | noteOff (ch : BitVec 4) (note vel : BitVec 7) (t : Nat)
  | noteOn (ch : BitVec 4) (note vel : BitVec 7) (t : Nat)
  | polyKeyPressure (ch : BitVec 4) (note p : BitVec 7) (t : Nat)
  | controlChange (ch : BitVec 4) (cc v : BitVec 7) (t : Nat)
  | bankSelectMsb (ch : BitVec 4) (v : BitVec 7) (t : Nat)
  | dataEntryMsb (ch : BitVec 4) (v : BitVec 7) (t : Nat)
  | dataEntryLsb (ch : BitVec 4) (v : BitVec 7) (t : Nat)
  | partVolume (ch : BitVec 4) (v : BitVec 7) (t : Nat)
  | pan (ch : BitVec 4) (v : BitVec 7) (t : Nat)
  | macros (ch : BitVec 4) (m : Fin 8) (v : BitVec 7) (t : Nat)
  | sustain (ch : BitVec 4) (v : BitVec 7) (t : Nat)
  | portamento (ch : BitVec 4) (v : BitVec 7) (t : Nat)
  | sostenuto (ch : BitVec 4) (v : BitVec 7) (t : Nat)
  | rpnSelect (ch : BitVec 4) (msb : Bool) (v : BitVec 7) (t : Nat)
  | nrpnSelect (ch : BitVec 4) (msb : Bool) (v : BitVec 7) (t : Nat)
  | allSoundOff (ch : BitVec 4) (v : BitVec 7) (t : Nat)
  | resetAllControllers (ch : BitVec 4) (v : BitVec 7) (t : Nat)
  | allNotesOff (ch : BitVec 4) (k : Fin 5) (v : BitVec 7) (t : Nat)
  | programChange (ch : BitVec 4) (p : BitVec 7) (t : Nat)
  | channelPressure (ch : BitVec 4) (p : BitVec 7) (t : Nat)
  | pitchBend (ch : BitVec 4) (lsb msb : BitVec 7) (t : Nat)
  | systemExclusive (data : List (BitVec 7)) (t : Nat)
  | systemCommon (k : Fin 7) (data : List (BitVec 7)) (t : Nat)
  | timingClock (t : Nat)
  | startPlay (t : Nat)
  | continuePlay (t : Nat)
  | stopPlay (t : Nat)
  | ignoredRealTime (k : Fin 4) (t : Nat)
  | externalModeExit (t : Nat)
  | regularFrame
  | faultFrame
  | statusLoadFrame
  -- program input
  | inputLock (edges : List BckEdge)
  | decisionInstant (edges : List BckEdge) (t : Nat)
  -- output modulator
  | switchingPeriod (ch : Fin 4) (rises falls : List Nat) (flips : TapFlips)
  | routineCycle (ch : Fin 4) (found : RoutineCheck)
  | lineCalibrationComplete (ch : Fin 4) (codes : List (BitVec 6)) (found : LineCheck)
  | trimStart (ch : Fin 4)
  | trimEnd (ch : Fin 4) (offset : Int)
  | trimRequestTimeout (ch : Fin 4)
  -- IR and general pins
  | pulseDistanceCodeFrame (runs : List IrRun) (t : Nat)
  | pulseDistanceRepeatFrame (runs : List IrRun) (t : Nat)
  | biPhaseFrame (runs : List IrRun) (t : Nat)
  | chainTimeout (t : Nat)
  | flood (a : IrActivity)
  | floodEnd (a : IrIdle)
  | debounceChange (entry : Fin 16)
  | switchRepeat (entry : Fin 16)
  | switchLong (entry : Fin 16)
  -- health
  | rotation
  | roleMove (cell : Fin 192)
  | cellTestComplete (cell : Fin 192) (reads : List TestRead)
  -- load service
  | loadInfo (h : LoadHead)
  | loadOpen (h : LoadHead) (mode : Byte) (tag : W32) (failRow : Option Nat)
  | loadSection (h : LoadHead) (id : W16) (length scrc : W32)
  | loadData (h : LoadHead) (offset : W32) (bytes : List Byte) (failRow : Option Nat)
  | loadSeal (h : LoadHead) (failRow : Option Nat)
  | loadClose (h : LoadHead) (failRow : Option Nat)
  | loadAbort (h : LoadHead)
  | acknowledgement
  -- binding actions
  | volumeStep (value : W32)
  | volumeSet (value : W32)
  | muteToggle
  | mute
  | unmute
  | sourceSet (value : W32)
  | sourceCycle
  | profileSet (value : W32)
  | profileStep (value : W32)
  | patchSet (part bank : Byte) (value : W32)
  | patchStep (part : Byte) (value : W32)
  | macroSet (part m : Byte) (value : W32)
  | macroStep (part m : Byte) (value : W32)
  | tap
  | tempoStep (value : W32)
  | transport (arg : Byte)
  | ccSend (part cc v : Byte)
  | note (part note vel : Byte)
  | counter (n action : Byte)
  | pinSet (entry : Byte)
  | pinClear (entry : Byte)
  | pinToggle (entry : Byte)
  | pinLevel (entry level : Byte)
  | duck (which arg : Byte)
  | wetSet (effect : Byte) (value : W32)
  -- datapath of one cell
  | clr (cell : Fin 192)
  | lda (cell : Fin 192) (x : Opd)
  | mul (cell : Fin 192) (x y : Opd)
  | mac (cell : Fin 192) (x y : Opd)
  | msu (cell : Fin 192) (x y : Opd)
  | add (cell : Fin 192) (x : Opd)
  | stf (cell : Fin 192) (d : Dst)
  | stx (cell : Fin 192) (d : Option Place)
  | neg (cell : Fin 192) (x : Opd) (d : Dst)
  | abs (cell : Fin 192) (x : Opd) (d : Dst)
  | min (cell : Fin 192) (x y : Opd) (d : Dst)
  | max (cell : Fin 192) (x y : Opd) (d : Dst)
  | sel (cell : Fin 192) (c x y : Opd) (d : Dst)
  | norm (cell : Fin 192) (x : Opd) (d : Dst)
  | exp (cell : Fin 192) (x : Opd) (d : Dst)
  | scale (cell : Fin 192) (x n : Opd) (d : Dst)
  | itf (cell : Fin 192) (k : Opd) (d : Dst)
  | ftp (cell : Fin 192) (x : Opd) (d : Dst)
  | padd (cell : Fin 192) (p q : Opd) (d : Dst)
  | phs (cell : Fin 192) (p : Opd) (k : Fin 17) (d : Dst)
  | ldx (cell : Fin 192) (p : Spot) (init : Option AddrInit) (d : Dst)
  | ld16 (cell : Fin 192) (byte : Fin 4194304) (d : Dst)
  | ldu (cell : Fin 192) (byte : Fin 4194304) (d : Dst)
  | character (samples : BitVec 10) (times : CharTimes)
  | trackingSettledEnd
deriving DecidableEq, Repr

end Sys2Proof
end

