-- ==== Sys2Proof/Decode.lean ====
section
/-! DEFINITION. The command that a word of the table's bits spells. The table gives no row any bits: commands reach the engine as levels,
edges and happenings, and a word of bits spells none of them. -/

namespace Sys2Proof

/-- The rows of opcode_table.json that give bits: their width, their word under the mask, the mask, the command. There are none. -/
def tableRows : List (Nat × Nat × Nat × Instr) := []

/-- The command whose row has `nbits` bits and the word `w`. -/
def decodeTableWord (nbits w : Nat) : Option Instr :=
  (tableRows.find? fun r => r.1 == nbits && Nat.land w r.2.2.1 == r.2.1).map fun r => r.2.2.2

end Sys2Proof
end

