-- ==== Sys2Proof/Config.lean ====
section
/-! DEFINITION. The free values and per-device figures that the spec leaves open. Each is an opaque constant: no proof can
see a value of it. The free values are applied to the counter `Engine.free`, which every use advances (log 5). -/

namespace Sys2Proof

/-- R178: the sound of the ROM chime is not defined; the words its 16 slots send (log 15). -/
opaque Config.chimeWord : Nat → W32

/-- R139: how much of the way to its goal the word-clock loop moves the fraction in one step; the model keeps every step between half of what the
slew limit and the goal leave and all of it (log 16). -/
opaque Config.wclkStep : Nat → Nat

/-- R147: where the timebase stands during the retune, in Hz above the lower bound; the model keeps it within the bounds of R147 (log 97). -/
opaque Config.clampHz : Nat → Nat

/-- Table 6-9: VOVR of this device in microvolts (the model limits it to the table's 10 000 to 45 000; log 14). -/
opaque Config.vovrMicro : Nat

/-- Table 6-9: VUNR of this device in microvolts (as `vovrMicro`; log 14). -/
opaque Config.vunrMicro : Nat

/-- R244, R245: VBAT in mV and Tj in quarters of a degree where the median of REF_BG is 0, for which the spec states no result; each a
function of the other median (log 104). -/
opaque Config.vbatNoRef : Nat → Nat

/-- As `vbatNoRef`, for Tj. -/
opaque Config.tjNoRef : Nat → Int

/-- R560: the count of a counter whose scaled count does not fit its 24 bits, for which the spec states no result (log 22). -/
opaque Config.counterFree : Nat → Nat

/-- R541: the tempo set by clock intervals that span no tick, for which the spec states no result (log 34). -/
opaque Config.tempoFree : Nat → Nat

/-- R726: the bytes of a row whose write was cut short or failed are undetermined (log 18). -/
opaque Config.failedByte : Nat → Byte

end Sys2Proof
end

