-- ==== Sys2Proof/Machine/Arith.lean ====
section
/-! DEFINITION. The exact arithmetic of a cell (09_cell_arithmetic.md §9.2 to §9.5): dyadic reals, rounding with ties
towards plus infinity, the binary32 and accumulator formats, and every datapath operation of Table 9-4 as a function. -/

namespace Sys2Proof.Machine

/-- A dyadic real `m * 2^e`: every binary32, accumulator and fixed-point value is one. -/
structure Dy where
  m : Int
  e : Int
deriving DecidableEq, Repr

/-- The real zero. -/
def Dy.zero : Dy := ⟨0, 0⟩

/-- Exact product. -/
def Dy.mul (a b : Dy) : Dy := ⟨a.m * b.m, a.e + b.e⟩

/-- Exact negation. -/
def Dy.neg (a : Dy) : Dy := ⟨-a.m, a.e⟩

/-- The significand of `a` at the lower exponent `k` (`k ≤ a.e`). -/
def Dy.at (a : Dy) (k : Int) : Int := a.m * (2 ^ (a.e - k).toNat : Nat)

/-- Exact sum. -/
def Dy.add (a b : Dy) : Dy :=
  let k := min a.e b.e
  ⟨a.at k + b.at k, k⟩

/-- Exact difference. -/
def Dy.sub (a b : Dy) : Dy := a.add b.neg

/-- `a < b` as reals. -/
def Dy.lt (a b : Dy) : Bool :=
  let k := min a.e b.e
  decide (a.at k < b.at k)

/-- `a ≤ b` as reals. -/
def Dy.le (a b : Dy) : Bool := !(Dy.lt b a)

/-- Magnitude. -/
def Dy.abs (a : Dy) : Dy := ⟨a.m.natAbs, a.e⟩

/-- The integer `i`. -/
def Dy.ofInt (i : Int) : Dy := ⟨i, 0⟩

/-- The greatest integer not above `a`. -/
def Dy.floor (a : Dy) : Int :=
  if 0 ≤ a.e then a.m * (2 ^ a.e.toNat : Nat) else a.m.fdiv (2 ^ (-a.e).toNat : Nat)

/-- `floor(a * 2^k)`. -/
def Dy.floorMul2 (a : Dy) (k : Int) : Int := Dy.floor ⟨a.m, a.e + k⟩

/-- `floor(a * 2^k + 0.5)`. -/
def Dy.roundMul2 (a : Dy) (k : Int) : Int := (Dy.floor ⟨a.m, a.e + k + 1⟩ + 1).fdiv 2

/-- The dyadic `a` as an exact rational. -/
def Dy.toRat (a : Dy) : Rat :=
  if 0 ≤ a.e then ((a.m * (2 ^ a.e.toNat : Nat) : Int) : Rat) else (a.m : Rat) / ((2 ^ (-a.e).toNat : Nat) : Rat)

/-- `floor(log2 |m|)` for `m ≠ 0`. -/
def intLog2 (m : Int) : Int := (Nat.log2 m.natAbs : Nat)

/-- R368: round `a` to a significand of `p` bits, ties towards plus infinity; no range limit. -/
def Dy.round (p : Nat) (a : Dy) : Dy :=
  if a.m = 0 then Dy.zero
  else
    let drop := intLog2 a.m - (p - 1)
    if drop ≤ 0 then a
    else
      let d := drop.toNat
      ⟨(a.m + (2 ^ (d - 1) : Nat)).fdiv (2 ^ d : Nat), a.e + d⟩

/-- The exponent `floor(log2 |a|)` of a value other than 0. -/
def Dy.expo (a : Dy) : Int := intLog2 a.m + a.e

/-- MAXF of §9.2. -/
def maxF : Dy := ⟨2 ^ 24 - 1, 104⟩

/-- MAXA of R364. -/
def maxA : Dy := ⟨2 ^ 32 - 1, 480⟩

/-- R369: limit to the largest value `big` and flush below `2^lo`. -/
def Dy.limit (a : Dy) (big : Dy) (lo : Int) : Dy :=
  if a.m = 0 then Dy.zero
  else if a.expo < lo then Dy.zero
  else if Dy.lt big a.abs then (if a.m < 0 then big.neg else big)
  else a

/-! ## The accumulator (R364) -/

/-- The one spelling of an accumulator value: 0 is `⟨0, 0⟩`, any other value has its leading bit at bit 31 of `m`. -/
def Dy.norm32 (a : Dy) : Dy :=
  if a.m = 0 then Dy.zero
  else
    let s := 31 - intLog2 a.m
    if 0 ≤ s then ⟨a.m * (2 ^ s.toNat : Nat), a.e - s⟩ else ⟨a.m.fdiv (2 ^ (-s).toNat : Nat), a.e - s⟩

/-- R364 as a check: 0, or a 32-bit significand with an exponent from -510 to 511. -/
def accOk (a : Dy) : Bool :=
  (a.m == 0 && a.e == 0) ||
    (decide (2 ^ 31 ≤ a.m.natAbs) && decide (a.m.natAbs < 2 ^ 32) && decide (-541 ≤ a.e) && decide (a.e ≤ 480))

/-- ρA: rounding to the accumulator (R368 to R370). -/
def roundA (a : Dy) : Dy := ((a.round 32).limit maxA (-510)).norm32

/-! ## Binary32 (Table 9-2, R362, R363) -/

/-- Table 9-3: the value of a binary32 word taken as an operand. -/
def f32Val (w : W32) : Dy :=
  let s := w.getLsbD 31
  let e := (w.extractLsb' 23 8).toNat
  let f := (w.extractLsb' 0 23).toNat
  let mag : Dy :=
    if e = 0 then Dy.zero
    else if e = 255 then maxF
    else ⟨(2 ^ 23 + f : Nat), (e : Int) - 150⟩
  if s then mag.neg else mag

/-- The binary32 word of a value that has one: 0, or at most 24 significant bits with an exponent from -126 to 127. -/
def f32Encode (a : Dy) : W32 :=
  if a.m = 0 then 0
  else
    let s := 23 - intLog2 a.m
    let mag : Nat := if 0 ≤ s then a.m.natAbs * 2 ^ s.toNat else a.m.natAbs / 2 ^ (-s).toNat
    let ex : Int := a.e - s + 150
    BitVec.ofNat 32 ((if a.m < 0 then 2 ^ 31 else 0) + ex.toNat * 2 ^ 23 + (mag - 2 ^ 23))

/-- ρF: the binary32 word that R368 and R369 give for `a`; ⟨a⟩ of R462 for a dyadic `a`. -/
def roundF (a : Dy) : W32 := f32Encode ((a.round 24).limit maxF (-126))

/-- A binary32 constant given exactly as `m * 2^e` with at most 24 significant bits. -/
def f32 (m : Int) (e : Int := 0) : W32 := roundF ⟨m, e⟩

/-- +1.0. -/
def one32 : W32 := 0x3F800000#32

/-! ## Rational rounding: ⟨e⟩ of R462 for a rational e -/

/-- `floor(log2 (n / d))` for `n, d > 0`. -/
def ratLog2 (n d : Nat) : Int :=
  let k : Int := (Nat.log2 n : Int) - (Nat.log2 d : Int)
  let ok : Bool := if 0 ≤ k then decide (d * 2 ^ k.toNat ≤ n) else decide (d ≤ n * 2 ^ (-k).toNat)
  if ok then k else k - 1

/-- R368 on the rational `n / d`: the nearest value with a `p`-bit significand, ties towards plus infinity. -/
def roundRat (p : Nat) (n : Int) (d : Nat) : Dy :=
  if n = 0 then Dy.zero
  else
    let k := ratLog2 n.natAbs d
    let sh : Int := (p : Int) - 1 - k
    let num : Int := if 0 ≤ sh then n * (2 ^ sh.toNat : Nat) else n
    let den : Nat := if 0 ≤ sh then d else d * 2 ^ (-sh).toNat
    ⟨(2 * num + den).fdiv (2 * den : Nat), -sh⟩

/-- ⟨q⟩ for a rational `q` (R462). -/
def ofRat (q : Rat) : W32 := f32Encode ((roundRat 24 q.num q.den).limit maxF (-126))

/-- The exact rational value of an operand word. -/
def f32Rat (w : W32) : Rat := (f32Val w).toRat

/-! ## Datapath operations (Table 9-4). `A` is the accumulator. -/

/-- LDA x (R371): exact. -/
def accLda (x : W32) : Dy := (f32Val x).norm32

/-- MUL x, y. -/
def accMul (x y : W32) : Dy := roundA ((f32Val x).mul (f32Val y))

/-- MAC x, y: one rounding (R372). -/
def accMac (a : Dy) (x y : W32) : Dy := roundA (a.add ((f32Val x).mul (f32Val y)))

/-- MSU x, y: one rounding (R372). -/
def accMsu (a : Dy) (x y : W32) : Dy := roundA (a.sub ((f32Val x).mul (f32Val y)))

/-- ADD x (R373). -/
def accAdd (a : Dy) (x : W32) : Dy := roundA (a.add (f32Val x))

/-- STF (R375). -/
def accStf (a : Dy) : W32 := roundF a

/-- An integer as a 24-bit two's-complement word limited to ±(2^23 - 1). -/
def sat24 (n : Int) : W24 := BitVec.ofInt 24 (max (-(2 ^ 23 - 1)) (min (2 ^ 23 - 1) n))

/-- STX (R376). -/
def accStx (a : Dy) : W24 := sat24 (a.roundMul2 23)

/-- NEG x: -(+0) is +0. -/
def fNeg (x : W32) : W32 := f32Encode (f32Val x).neg

/-- ABS x. -/
def fAbs (x : W32) : W32 := f32Encode (f32Val x).abs

/-- The word read under R362 and written back under R363. -/
def fRead (x : W32) : W32 := f32Encode (f32Val x)

/-- `x < y` by value (R381). -/
def fLt (x y : W32) : Bool := (f32Val x).lt (f32Val y)

/-- `x ≤ y` by value (R381). -/
def fLe (x y : W32) : Bool := (f32Val x).le (f32Val y)

/-- MIN x, y; x when equal. -/
def fMin (x y : W32) : W32 := if fLt y x then fRead y else fRead x

/-- MAX x, y; x when equal. -/
def fMax (x y : W32) : W32 := if fLt x y then fRead y else fRead x

/-- SEL c, x, y. -/
def fSel (c x y : W32) : W32 := if (f32Val c).m < 0 then fRead y else fRead x

/-- EXP x (R377): the binary32 value of the exponent, -128.0 for zero. -/
def fExp (x : W32) : W32 :=
  let v := f32Val x
  if v.m = 0 then f32 (-128) else f32 v.expo

/-- NORM x (R377): ±M with 1 ≤ M < 2. -/
def fNorm (x : W32) : W32 :=
  let v := f32Val x
  if v.m = 0 then 0 else f32Encode ⟨v.m, v.e - v.expo⟩

/-- SCALE x, n (R378, R405). -/
def fScale (x n : W32) : W32 :=
  let j := max (-1024) (min 1023 (f32Val n).floor)
  let v := f32Val x
  f32Encode (Dy.limit ⟨v.m, v.e + j⟩ maxF (-126))

/-- ITF k (R371) of an integer. -/
def fItf (k : Int) : W32 := roundF (Dy.ofInt k)

/-- FTP of an exact real (R379, R466). -/
def ftpDy (a : Dy) : W32 := BitVec.ofInt 32 (max 0 (min (2 ^ 32 - 1) (a.roundMul2 32)))

/-- FTP x (R379). -/
def fFtp (x : W32) : W32 := ftpDy (f32Val x)

/-- PHS p, k, the index (R380). -/
def phsIndex (p : W32) (k : Nat) : Nat := p.toNat / 2 ^ (32 - k)

/-- PHS p, k, the fraction (R380). -/
def phsFrac (p : W32) (k : Nat) : W32 := f32Encode ⟨((p.toNat * 2 ^ k) % 2 ^ 32 / 2 ^ 9 : Nat), -23⟩

/-- LDX (R366): a 24-bit word as binary32, exact. -/
def ldx (n : W24) : W32 := f32Encode ⟨n.toInt, -23⟩

/-- LD16 (R366). -/
def ld16 (n : W16) : W32 := f32Encode ⟨n.toInt, -15⟩

/-- R367: the G.711 µ-law decoding of a byte. -/
def muLaw (u : Byte) : Int :=
  let v := u ^^^ 0xFF#8
  let x := (v.extractLsb' 4 3).toNat
  let m := (v.extractLsb' 0 4).toNat
  let t : Int := ((8 * m + 132) * 2 ^ x : Nat)
  if v.getLsbD 7 then 132 - t else t - 132

/-- LDU (R366). -/
def ldu (u : Byte) : W32 := f32Encode ⟨muLaw u, -15⟩

/-- R383: the address after a post-modify by step `s` in a window of length `len` at base `b`. -/
def postModify (b len a : Nat) (s : Int) : Nat := b + (((a : Int) - b + s) % (len : Int)).toNat

/-! ## Lines of R461 -/

/-- One term of a line of R461. -/
inductive Term where
  | val (x : W32)
  | sub (x : W32)
  | mac (x y : W32)
  | msu (x y : W32)
deriving DecidableEq, Repr

/-- The first term: LDA, or CLR and MAC/MSU (R461). -/
def Term.first : Term → Dy
  | .val x => accLda x
  | .sub x => accLda (fNeg x)
  | .mac x y => accMac Dy.zero x y
  | .msu x y => accMsu Dy.zero x y

/-- A later term (R461). -/
def Term.next (a : Dy) : Term → Dy
  | .val x => accAdd a x
  | .sub x => accAdd a (fNeg x)
  | .mac x y => accMac a x y
  | .msu x y => accMsu a x y

/-- The accumulator at the end of a line. -/
def lineAcc : List Term → Dy
  | [] => Dy.zero
  | t :: ts => ts.foldl Term.next t.first

/-- A line of R461: its final STF. -/
def line (ts : List Term) : W32 := accStf (lineAcc ts)

/-- `x * y` as MUL and STF (a line of one product gives the same word). -/
def fMul (x y : W32) : W32 := accStf (accMul x y)

/-- `x + y`. -/
def fAdd (x y : W32) : W32 := line [.val x, .val y]

/-- `x - y`. -/
def fSub (x y : W32) : W32 := line [.val x, .sub y]

/-- MIN and MAX to the range `lo` to `hi` (R504). -/
def fClamp (lo hi x : W32) : W32 := fMin (fMax x lo) hi

/-- A sum of products in order: CLR, MAC for each pair, STF. -/
def macSum (ps : List (W32 × W32)) : W32 := accStf (ps.foldl (fun a p => accMac a p.1 p.2) Dy.zero)

end Sys2Proof.Machine
end

