-- ==== Sys2Proof/Machine/Memory.lean ====
section
/-! DEFINITION. The two addressed stores of the engine as sparse lists in one canonical form: addresses strictly rising and
no entry equal to what an unlisted address reads as. The caddy (R723) holds bytes and reads 0x00 where nothing is listed
(log 2); the delay memory (R384) holds 24-bit words and reads 0x000000. -/

namespace Sys2Proof.Machine

/-- The caddy's 4 194 304 bytes (R723). -/
abbrev Memory := List Host.Cell

/-- The delay memory's 262 144 places of 24 bits (R384). -/
abbrev DelayMem := List (Nat × W24)

/-- The value at address `k`; `z` where nothing is listed. -/
def sparseGet {α : Type} (z : α) : List (Nat × α) → Nat → α
  | [], _ => z
  | (a, v) :: r, k => if k < a then z else if k = a then v else sparseGet z r k

/-- The store with `v` at address `k`. Writing `z` removes the entry. -/
def sparseSet {α : Type} [DecidableEq α] (z : α) (k : Nat) (v : α) : List (Nat × α) → List (Nat × α)
  | [] => if v = z then [] else [(k, v)]
  | (a, w) :: r =>
    if k < a then (if v = z then (a, w) :: r else (k, v) :: (a, w) :: r)
    else if k = a then (if v = z then r else (k, v) :: r)
    else (a, w) :: sparseSet z k v r

/-- Every address is at least `lo`, addresses rise strictly and no entry holds `z`. -/
def sparseOk {α : Type} [DecidableEq α] (z : α) : Nat → List (Nat × α) → Bool
  | _, [] => true
  | lo, (a, v) :: r => decide (lo ≤ a) && decide (v ≠ z) && sparseOk z (a + 1) r

/-- The canonical form of the caddy. -/
def Memory.wf (m : Memory) : Bool := sparseOk 0#8 0 m

/-- The canonical form of the delay memory. -/
def DelayMem.wf (m : DelayMem) : Bool := sparseOk 0#24 0 m

/-- One byte of the caddy. -/
def caddyGet (m : Memory) (a : Nat) : Byte := sparseGet 0#8 m a

/-- One byte written to the caddy; addresses outside R723 do not exist and take nothing. -/
def caddySet (m : Memory) (a : Nat) (b : Byte) : Memory := if a < 4194304 then sparseSet 0#8 a b m else m

/-- Bytes written one after another from address `a`. -/
def caddyWrite (m : Memory) (a : Nat) : List Byte → Memory
  | [] => m
  | b :: bs => caddyWrite (caddySet m a b) (a + 1) bs

/-- `n` bytes from address `a` of a store whose entries all lie at or above `a`. -/
def caddyFrom : Memory → Nat → Nat → List Byte
  | _, _, 0 => []
  | [], a, n + 1 => 0#8 :: caddyFrom [] (a + 1) n
  | (k, v) :: r, a, n + 1 =>
    if a = k then v :: caddyFrom r (a + 1) n else 0#8 :: caddyFrom ((k, v) :: r) (a + 1) n

/-- `n` bytes of the caddy from address `a`, in one pass. -/
def caddyRange (m : Memory) (a n : Nat) : List Byte := caddyFrom (m.dropWhile fun p => decide (p.1 < a)) a n

/-- The little-endian number of a list of bytes (R6). -/
def leNat : List Byte → Nat
  | [] => 0
  | b :: bs => b.toNat + 256 * leNat bs

/-- `n` little-endian bytes of a number (R6). -/
def leBytes : Nat → Nat → List Byte
  | 0, _ => []
  | n + 1, v => BitVec.ofNat 8 v :: leBytes n (v / 256)

/-- A little-endian 32-bit word of the caddy. -/
def caddyWord (m : Memory) (a : Nat) : W32 :=
  BitVec.ofNat 32 (leNat [caddyGet m a, caddyGet m (a + 1), caddyGet m (a + 2), caddyGet m (a + 3)])

/-- A little-endian 16-bit word of the caddy. -/
def caddyHalf (m : Memory) (a : Nat) : Nat := leNat [caddyGet m a, caddyGet m (a + 1)]

/-- The place at address `a` of the delay memory. -/
def delayGet (m : DelayMem) (a : Nat) : W24 := sparseGet 0#24 m a

/-- One place written; addresses outside R384 do not exist and take nothing. -/
def delaySet (m : DelayMem) (a : Nat) (w : W24) : DelayMem := if a < 262144 then sparseSet 0#24 a w m else m

/-! ## Check words -/

/-- One bit step of CRC-32C, reflected (R727). -/
def crc32cBit (c : W32) : W32 := if c.getLsbD 0 then (c >>> 1) ^^^ 0x82F63B78#32 else c >>> 1

/-- One byte of CRC-32C. -/
def crc32cByte (c : W32) (b : Byte) : W32 :=
  let c := c ^^^ b.setWidth 32
  crc32cBit (crc32cBit (crc32cBit (crc32cBit (crc32cBit (crc32cBit (crc32cBit (crc32cBit c)))))))

/-- R727: CRC-32C of a list of bytes. -/
def crc32c (bs : List Byte) : W32 := (bs.foldl crc32cByte 0xFFFFFFFF#32) ^^^ 0xFFFFFFFF#32

/-- One bit step of the CRC-16 of R105. -/
def crc16Bit (c : W16) : W16 := if c.getLsbD 15 then (c <<< 1) ^^^ 0x1021#16 else c <<< 1

/-- One byte of the CRC-16 of R105. -/
def crc16Byte (c : W16) (b : Byte) : W16 :=
  let c := c ^^^ (b.setWidth 16 <<< 8)
  crc16Bit (crc16Bit (crc16Bit (crc16Bit (crc16Bit (crc16Bit (crc16Bit (crc16Bit c)))))))

/-- R105: the CRC-16 of a list of bytes. -/
def crc16 (bs : List Byte) : W16 := bs.foldl crc16Byte 0xFFFF#16

/-- One bit step of the CRC-8 of R295. -/
def crc8Bit (c : Byte) : Byte := if c.getLsbD 7 then (c <<< 1) ^^^ 0x07#8 else c <<< 1

/-- One byte of the CRC-8 of R295. -/
def crc8Byte (c b : Byte) : Byte :=
  let c := c ^^^ b
  crc8Bit (crc8Bit (crc8Bit (crc8Bit (crc8Bit (crc8Bit (crc8Bit (crc8Bit c)))))))

/-- R295: the CRC-8 of a list of bytes. -/
def crc8 (bs : List Byte) : Byte := bs.foldl crc8Byte 0#8

end Sys2Proof.Machine
end

