-- ==== Sys2Proof/Machine/State.lean ====
section
/-! DEFINITION. The state of the engine: everything the spec gives the machine, as plain data. Instants are rationals in tQ
(one sixteenth of a crystal period, R270) from t0. Frames are numbered as R21 numbers them. A binary32 word is a `W32`. -/

namespace Sys2Proof.Machine

/-- An instant or a duration in tQ. -/
abbrev Time := Rat

/-- The mode in force (Table 6-1). -/
inductive Mode where
  | play | bench | load
deriving DecidableEq, Repr

/-- The kettle family (Table 0-4). -/
inductive Fam where
  | f48 | f44
deriving DecidableEq, Repr

/-- Supplies and resets (02, 03): RESET_N as the reset logic sees it, the internal power-on reset, the internal reset of
R152, the rails found below their thresholds, and the source of VTH (R97). -/
structure Power where
  resetN : Bool
  por : Bool
  internal : Bool
  low : List Rail
  vbak : Bool
deriving DecidableEq, Repr

/-- The thermos (R104, R105, R109): T00 to T3F, TC and the hold latch. -/
structure Thermos where
  words : List W16
  tc : W16
  hold : Bool
deriving DecidableEq, Repr

/-- Where a relock or a recovery stands (Table 4-7, R153). `fin` is the instant at which a
relock is complete, 2 ms after its unmute start. -/
inductive Relock where
  | none
  | mute (target : Fam)
  | retune
  | settle
  | unmute (fin : Time)
deriving DecidableEq, Repr

/-- Word-clock tracking (R139 to R141, R149). -/
inductive Track where
  | off | steering | frozen
deriving DecidableEq, Repr

/-- The kettle (04). `down` is the instant from which the 1 ms of R152 runs; `loopAt` the instant from which the 20 ms of R154 run; `other`
the instant since which the input has been locked in the other family (R137). `recovery` says that what is in progress is the recovery from
an unlock outside a relock (R153), `place` that the resampler is placed again at the next strobe (R153, R599). `steer` is the word-clock
correction of the frame period in units of 10^-12, `rate` the mean deviation of Pm from P_ref in the same units since the steering began.
`phRef` is the phase of WS_IN against the frame grid that R140 watches, `phAt` the instant since which it has stayed within 1 µs. -/
structure Kettle where
  crystal : Bool
  crystalAt : Time
  startRaised : Bool
  down : Option Time
  fam : Fam
  loopAt : Option Time
  locked : Bool
  firstLock : Bool
  tLock : Time
  tRel : Time
  tRT : Time
  carrier : Bool
  origin : Time
  carrierK : Nat
  handback : Bool
  clamp : Bool
  relock : Relock
  recovery : Bool
  place : Bool
  other : Option Time
  refRaised : Bool
  track : Track
  steer : Int
  settled : Bool
  rate : Int
  phRef : Time
  phAt : Option Time
deriving DecidableEq, Repr

/-- The strobe count and the counter ticks (§1.4, R133): `n` is the last strobe when `started`, `last` its instant, `tick` the
ticks since the last strobe. -/
structure Strobe where
  started : Bool
  n : Nat
  last : Time
  tick : Nat
deriving DecidableEq, Repr

/-- A MIDI message held during steep (R181): its bytes with the status byte, and its completion in crystal periods from t0. -/
structure Held where
  bytes : List Byte
  time : Nat
deriving DecidableEq, Repr

/-- A decoded remote-control code (Table 16-2): protocol 1 or 2, address, command, toggle bit. -/
structure IrCode where
  proto : Nat
  address : Nat
  command : Nat
  toggle : Bool
deriving DecidableEq, Repr

/-- Steep (05): the completion of each bring-up step, the strobes P and F, what is held until F, the volume index and mute of the record in
force, the frame in which the crossfade of R193 starts with the family in which its counts were formed (R937), and whether the restore
ramp runs. `chimeEnd` is the instant at which the chime ends. The times of `irHold` are crystal periods from t0. -/
structure Steep where
  b1 : Bool
  b3 : Bool
  b4 : Bool
  b5 : Bool
  b6 : Bool
  b7 : Bool
  b8 : Bool
  b9 : Bool
  b10 : Bool
  halted : Bool
  late : Bool
  p : Option Nat
  f : Option Nat
  held : List Held
  heldOver : Bool
  heldRt : Option Held
  irHold : List (IrCode × Nat)
  chime : Bool
  chimeEnd : Time
  index0 : Nat
  muted0 : Bool
  xAt : Option Nat
  xFam : Fam
  restore : Bool
deriving DecidableEq, Repr

/-- The four strap levels and the output format they select (06). -/
structure Straps where
  a : Nat
  b : Nat
  c : Nat
  d : Nat
deriving DecidableEq, Repr

/-- A valid section: its first byte in the caddy and its length. -/
structure Section where
  base : Nat
  len : Nat
deriving DecidableEq, Repr

/-- One directory entry (Table 17-5). -/
structure DirEntry where
  id : Nat
  start : Nat
  nsec : Nat
  length : Nat
  scrc : W32
deriving DecidableEq, Repr

/-- A directory as the engine holds it (Table 17-4): the copy it comes from (0 A, 1 B), GEN, TAG and the entries. -/
structure Directory where
  copy : Nat
  gen : Nat
  tag : W32
  entries : List DirEntry
deriving DecidableEq, Repr

/-- The calibration in force (Table 18-6, Table 18-7). -/
structure Calib where
  tjA : W32
  tjB : W32
  bgTrim : Nat
  adcOfs : Nat
  adcGain : Nat
  gdt : List Nat
deriving DecidableEq, Repr

/-- The bank image in force, fixed at bring-up (R790): the directory, the system section (none: the ROM system section), the
patch banks, the wave sections and the calibration. -/
structure Image where
  dir : Option Directory
  sys : Option Nat
  banks : List (Option Section)
  waves : List (Option Section)
  calCopy : Option Nat
  cal : Calib
deriving DecidableEq, Repr

/-- One channel of the dial scan (R232 to R236). `codes` are the entered conversions, newest first, at most five. -/
structure DialChan where
  codes : List Nat
  flagged : Bool
  prevFlagged : Bool
  ovr : Bool
  unr : Bool
  seen : Bool
  episode : Bool
  clean : Nat
deriving DecidableEq, Repr

/-- The debounce of a ladder dial (R242): debounced key, run candidate and its length, last reported key. -/
structure Ladder where
  key : Option Nat
  cand : Option Nat
  run : Nat
  reported : Option Nat
deriving DecidableEq, Repr

/-- The dial converter (06, 20): DIAL0 to DIAL11, VBAT_SENSE, TEMP, REF_BG, REF_GND; Prep of each dial; the reference hold;
VBAT in mV, Tj in units of 0.25 °C; the battery state (0 OK, 1 LOW, 2 CRIT). `done` is the strobe of the last conversion. -/
structure Dials where
  chans : List DialChan
  prep : List (Option Nat)
  ladders : List Ladder
  done : Option Nat
  hold : Bool
  badBg : Nat
  badGnd : Nat
  goodBg : Nat
  goodGnd : Nat
  vbat : Option Nat
  tj : Option Int
  battery : Nat
deriving DecidableEq, Repr

/-- The MIDI parser (R274 to R277): running status, the status byte of the message in progress with its data so far, and
whether a SysEx is being discarded. -/
structure Parser where
  running : Option Byte
  status : Option Byte
  data : List Byte
  sysex : Bool
deriving DecidableEq, Repr

/-- The event port (07): receiver, parser, counters of Table 7-10, the transmitter and its cadence (R296, R300). `ref` is the reference
instant of R272; `peak` holds the largest magnitudes of LEVELS. `cand` are the edges of the sync candidate that is open, its opening edge
first, `candFrom` the instant from which an edge may open one (R267, R268). -/
structure Link where
  armed : Bool
  sync : Bool
  tr : Option Time
  ref : Option Time
  parser : Parser
  framing : Nat
  syncFail : Nat
  partialCount : Nat
  overrun : Nat
  syncRaised : Bool
  rx : List Byte
  rxStart : Option Time
  seq : Byte
  txUntil : Time
  txBytes : List Byte
  regularDue : Bool
  loadDue : Bool
  peak : List W32
  cand : List Nat
  candFrom : Time
deriving DecidableEq, Repr

/-- The program input (08): lock, C, Pm, P_ref, the row of Table 4-6 (15: a rate with no family), the recent good periods
newest first, the start of the frame in progress or its expected start, the held samples. `runFrom` is the first instant whose edges may belong
to the run that is sought while the input is unlocked (R324 to R326, R342). -/
structure Input where
  locked : Bool
  row : Nat
  c : Nat
  pm : Time
  pref : Time
  periods : List Time
  start : Option BckEdge
  expect : Time
  ws : Bool
  prevGood : Bool
  errRun : Nat
  hold : List W24
  lastInst : Time
  rateRaised : Bool
  runFrom : Nat
deriving DecidableEq, Repr

/-- When a fault is raised: the latest instant that a command has brought in, and how many commands that bear no instant have followed and raised
faults of their own. -/
abbrev Moment := Time × Nat

/-- A pending FAULT record (R299): its code, its count, and when it was made. -/
structure FaultRec where
  code : Nat
  count : Nat
  made : Moment
deriving DecidableEq, Repr

/-- The fault reports (21, R299): pending FAULT records in the order they were made, the codes raised before F in first-raise
order with the moment of the raise, whether class L was raised, the class C codes raised, the retained code last raised since t0 with its
moment, whether it is still to be written to T05, and the second part of the present moment (the model's own field, log 96). -/
structure Faults where
  pend : List FaultRec
  early : List (Nat × Moment)
  latched : Bool
  classC : List Nat
  last : Option (Nat × Moment)
  dirty : Bool
  epoch : Nat
deriving DecidableEq, Repr

/-- What a cell is used for (Table 1-2, R876, R878). A pair hosts slots `2 k` and `2 k + 1`. -/
inductive Role where
  | idle
  | voice (pair : Nat)
  | bus (k : Nat)
  | spare
  | fenced
deriving DecidableEq, Repr

/-- Health of one cell (21): role, order of its last passing test (0: never; cells that pass B5 share 1), test under way (none, or the order
in which it began), a retest, passes of the retest in a row, times fenced since t0, the order in which its latest test began. `fit`: its
last test passed and it has taken no role since (R875). `back`: it has returned since the last rotation (R420). -/
structure CellHealth where
  role : Role
  fit : Bool
  passed : Nat
  testing : Option Nat
  retest : Bool
  passes : Nat
  fences : Nat
  began : Nat
  back : Bool
deriving DecidableEq, Repr

/-- A role move that is decided and waits for its boundary (R874, R879, R880): from, to (none: the roles are placed again), the role, frame of
the boundary, whether the source is fenced there, whether its state is still to be cleared, whether the source stalled. -/
structure Move where
  src : Nat
  dst : Option Nat
  role : Role
  frame : Nat
  fence : Bool
  lost : Bool
  stall : Bool
deriving DecidableEq, Repr

/-- The health logic (21): cells, moves waiting, a counter that orders tests, whether MEADOW_LOST was raised, the number of fenced cells,
what f became with each fence that the conductor has still to decide (R421, R877), the cells that have raised CELL_PARITY and wait for the
conductor, and the number of the last rotation. -/
structure Health where
  cells : List CellHealth
  moves : List Move
  order : Nat
  lost : Bool
  f : Nat
  news : List Nat
  parity : List Nat
  rot : Nat
deriving DecidableEq, Repr

/-- A load session (R745): full-replace or not, its TAG, the sealed entries, the first free sector of a full-replace, the
verified calibration data. -/
structure Session where
  full : Bool
  tag : W32
  entries : List DirEntry
  next : Nat
  cal : Option (List Byte)
deriving DecidableEq, Repr

/-- The open section of a session: ID, LENGTH, SCRC, first sector, bytes received, calibration bytes held. -/
structure OpenSection where
  id : Nat
  length : Nat
  scrc : W32
  start : Nat
  got : Nat
  held : List Byte
deriving DecidableEq, Repr

/-- Load service (17): whether it has begun, the recorded SEQ, CMD and acknowledgement (R743), the session and the open section,
the acknowledgement due with the end of its frame's processing (R744), and the stop bit of the last acknowledgement (R742). -/
structure Load where
  begun : Bool
  recorded : Option (Byte × Byte × List Byte)
  session : Option Session
  sect : Option OpenSection
  ackDue : Option (List Byte)
  ackFrom : Time
  ackStop : Time
deriving DecidableEq, Repr

/-- An event that bindings may match (Table 20-10), or an action raised by a binding (Table 20-11). Masks: bit 0 PRESS, 1 REPEAT,
2 RELEASE, 3 LONG, 4 SHORT. Counter kinds: 0 underflow, 1 match, 2 capture. -/
inductive Ev where
  | irKey (entry bit : Nat)
  | gp (entry bit : Nat)
  | ladder (dial key : Nat) (release : Bool)
  | dial (dial u : Nat)
  | noteOn (part note : Nat)
  | noteOff (part note : Nat)
  | counter (k kind : Nat)
  | battery (s : Nat)
  | fault (code : Nat)
deriving DecidableEq, Repr

/-! ### Parts, conductor and voices -/

/-- A macro of a part (R810, R811): it goes from `v0` to `v1` in `n` frames from frame `start` on. -/
structure Macro where
  v0 : W32
  v1 : W32
  start : Nat
  n : Nat
deriving DecidableEq, Repr

/-- The record of one part (R281, R285). `latch`: none, or the bank, or `some none` for invalid. `bendRange` is B; the registered
parameters keep their MSB and LSB. `bank` and `patchNo` are the stored selection, `patch` what it resolves to (R791). -/
structure PartRec where
  cc : List Nat
  bend : Nat
  pressure : Nat
  latch : Option (Option Nat)
  rpnMsb : Nat
  rpnLsb : Nat
  bendRange : Rat
  bendMsb : Nat
  bendLsb : Nat
  fineMsb : Nat
  fineLsb : Nat
  coarseMsb : Nat
  coarseLsb : Nat
  porta : Option Bool
  bank : Nat
  patchNo : Nat
  patch : Option Nat
  macros : List Macro
deriving DecidableEq, Repr

/-- The state of a voice that the steal order reads (Table 10-4). -/
inductive SlotState where
  | held | deferred | released
deriving DecidableEq, Repr

/-- An occupied slot (R416): the voice's number, part (0: the chime), note, patch, voice mode, steal class, the slots of its group, state
with its stamp and order of completion, latch (R436), release velocity of a deferred note-off. -/
structure SlotRec where
  id : Nat
  part : Nat
  note : Nat
  patch : Option Nat
  vmode : Nat
  cls : Nat
  group : List Nat
  state : SlotState
  stamp : Nat
  order : Nat
  latched : Bool
  relVel : Nat
deriving DecidableEq, Repr

/-- A slot: what occupies it, and from which stamp it is free (R412). -/
structure Slot where
  occ : Option SlotRec
  freeFrom : Nat
deriving DecidableEq, Repr

/-- What a queue entry does (Table 10-1). `cut` is the CUT entry, `steal` a cut applied directly (R941), which takes no place. -/
inductive Act where
  | noteOn (part note vel : Nat) (patch : Option Nat) (uIdx uCnt : Nat) (glide : Option Nat)
  | retrig (note vel : Nat) (flag : Bool) (glide : Option Nat) (former : SlotRec) (fromOn : Bool)
  | release (vel : Nat)
  | pressure (p : Nat)
  | cut
  | steal
deriving DecidableEq, Repr

/-- A pending queue entry (R414): target frame, the voice it is written for (R942), what it does. -/
structure Entry where
  frame : Nat
  id : Nat
  act : Act
deriving DecidableEq, Repr

/-- The conductor (10). `noteStacks` are the note stacks, top key last; `glide` and `vel` the latest note-on of each part; `ends` the
voices that ended, by frame and slot; `ceiling` is K, `run96` the run of R446, `lastShed` the stamp of the last shed. -/
structure Cond where
  slots : List Slot
  queues : List (List Entry)
  noteStacks : List (List Nat)
  glide : List (Option Nat)
  vel : List Nat
  ends : List (Nat × Nat × Nat)
  nextId : Nat
  order : Nat
  limit : Nat
  fenceOn : Bool
  ceiling : Option Nat
  lastShed : Option Nat
  run96 : Nat
deriving DecidableEq, Repr

/-- An oscillator (R472, R475): phase, sample index and fraction, ended state, and whether its last advance wrapped. -/
structure Osc where
  p : W32
  idx : Nat
  q : W32
  ended : Bool
  wrapped : Bool
deriving DecidableEq, Repr

/-- The stages of an envelope (11.7). -/
inductive EnvStage where
  | delay | attack | hold | decay | sustain | release | done
deriving DecidableEq, Repr

/-- An envelope: stage, frame number within it, the stage's count, e0, the level of the last frame, and ℓ of R490. -/
structure Env where
  stage : EnvStage
  k : Nat
  count : Nat
  e0 : W32
  level : W32
  ell : W32
deriving DecidableEq, Repr

/-- An LFO: phase, whether its last advance wrapped, the value held by sample and hold, and the frames of its delay and of its fade, formed
at the start of the voice (R463, R496). -/
structure Lfo where
  p : W32
  wrapped : Bool
  held : W32
  nl : Nat
  nf : Nat
deriving DecidableEq, Repr

/-- A filter: the states of its two stages (R485, R486). -/
structure Flt where
  a1 : W32
  a2 : W32
  b1 : W32
  b2 : W32
deriving DecidableEq, Repr

/-- A sounding voice (11): `frame` counts its frames, `sums` are the matrix sums of the last frame by destination, the glide runs in
`gK` of `gN` frames from `gDelta` semitones with step `gStep`. -/
structure Voice where
  id : Nat
  part : Nat
  patch : Option Nat
  note : Nat
  vel : Nat
  relVel : Option Nat
  press : Nat
  uIdx : Nat
  uCnt : Nat
  frame : Nat
  oscs : List Osc
  flts : List Flt
  envs : List Env
  lfos : List Lfo
  sums : List W32
  xi : W32
  gDelta : Int
  gStep : W32
  gK : Nat
  gN : Nat
deriving DecidableEq, Repr

/-- The tail of a cut voice (R435): s, the next k, the pan word and the part. -/
structure Tail where
  s : W32
  k : Nat
  pan : W32
  part : Nat
deriving DecidableEq, Repr

/-- What a slot's cell holds: the voice, the tail, the words sent in the last frame (voice word, tail word), the pan word and part of the
last voice word, and the noise generator (R479), oldest word first. -/
structure SlotCell where
  voice : Option Voice
  tail : Option Tail
  word : W32
  tailWord : W32
  pan : W32
  part : Nat
  noise : List W32
deriving DecidableEq, Repr

/-! ### General pins and infrared -/

/-- An internal bias resistor (Table 2-5). -/
inductive Bias where
  | none | up | down
deriving DecidableEq, Repr

/-- How a general pin stands (Tables 2-5 and 2-6, R713): input with its bias, driven low, driven high, released, low or input with pull-down
as STRAP_A selects digital output on it or not (R62, R63, before B1 has read the strap), or carrying BCK_OUT, WS_OUT, SD_OUT0 or SD_OUT1, or
MCLK_OUT; the clocks with their divisor of the timebase (Table 4-1, Table 15-6). -/
inductive PinDrive where
  | input (b : Bias)
  | low | high | released
  | byStrapA
  | bck (divisor : Nat)
  | ws
  | sd (line : Nat)
  | mclk (divisor : Nat)
deriving DecidableEq, Repr

/-- One entry of the GP pin map (16): whether it has taken its pin, the last sample, whether the first sample is still to come (R64),
the debounced level, the run of R704 with its length, the ticks since the last PRESS or REPEAT with the count at which the
next REPEAT or the LONG falls, whether a LONG was raised, the level of R710 and whether a VU entry is lit. -/
structure GpEntry where
  taken : Bool
  sample : Bool
  fresh : Bool
  state : Bool
  run : Nat
  need : Nat
  hold : Nat
  due : Nat
  longDone : Bool
  level : Nat
  lit : Bool
deriving DecidableEq, Repr

/-- The pin actions of Table 16-5. -/
inductive PinAct where
  | set | clear | toggle
  | level (n : Nat)
deriving DecidableEq, Repr

/-- The pins that the engine drives apart from the gates and the digital output. `faultLow`: FAULT_N is driven low. -/
structure Pins where
  ready : Bool
  faultLow : Bool
  gp : List PinDrive
deriving DecidableEq, Repr

/-- A chain of remote-control frames (R695): its code, the completion of the starting frame and of the latest one, the last PRESS or
REPEAT, whether the frame of the LONG has passed, whether a LONG was raised. -/
structure IrChain where
  code : IrCode
  start : Time
  last : Time
  beat : Time
  longPast : Bool
  longRaised : Bool
deriving DecidableEq, Repr

/-- The IR decoder: the chain that is alive, whether a flood is in progress, and the instant before which no frame that is to be decoded may have
begun (the end of the latest flood, R699). -/
structure Ir where
  chain : Option IrChain
  flood : Bool
  since : Time
deriving DecidableEq, Repr

/-! ### Tempo counters -/

/-- One counter (Table 12-1). `gate`: 0 none, 1 an input entry, 2 the transport. `capOn` names a capture entry, `capEdge` 0 rising, 1 falling,
2 either. Actions: 0 NONE, 1 RESET, 2 START, 3 STOP, 4 RESTART. -/
structure Ctr where
  cnt : Nat
  rld : Nat
  cmp : Nat
  run : Bool
  gate : Nat
  gateEntry : Nat
  gateLevel : Bool
  master : Option Nat
  capOn : Option Nat
  capEdge : Nat
  cap : Option Nat
  ovf : Bool
  mSelf : Nat
  mLink : Nat
  uSelf : Nat
  uLink : Nat
  link : Option Nat
deriving DecidableEq, Repr

/-- A key of a part (R551): note and velocity, whether its note-off has not applied, whether CC 66 latched it. -/
structure Key where
  note : Nat
  vel : Nat
  down : Bool
  sost : Bool
deriving DecidableEq, Repr

/-- A lane (R550 to R559): the part that holds it, whether it runs, the tick after which its first step may fall, the length of the current
step, whether the next reload is the short one, the previous lane note, the direction, the index, the sounding note, whether the
current step is tied, the sequencer step that is being played (R555), the tick of its last step and the random generator. -/
structure Lane where
  part : Option Nat
  going : Bool
  armed : Option Nat
  len : Nat
  short : Bool
  prev : Int
  up : Bool
  idx : Nat
  snd : Option Nat
  tie : Bool
  cur : Option Nat
  stepTick : Option Nat
  gen : W16
deriving DecidableEq, Repr

/-- What the conductor writes at an apply tick (R520). -/
inductive CWrite where
  | pulse
  | lane (m : Nat)
  | arm (m : Nat)
  | act (k code : Nat)
  | tempo (t : Nat)
  | tempoStep (d : Int)
  | transport (code : Nat)
  | clock
  | start
  | resume
  | stop
  | tap
  | tapRead
  | capRead (k : Nat)
deriving DecidableEq, Repr

/-- The tempo counters (12). `ticks` numbers the ticks from F on; `j` is J, `m` the pulses since the grid origin, `grid` T of that grid,
`tempo` the latest tempo set and `origin` whether it waits for the next pulse (R538); `k` is the clock count of R542 (the lock of R543 holds
while it is some), `waiting` says that the next counted clock starts the transport; `catchTo` the pulse to be raised up to (R543). `clkLast`
is the instant at which the latest clock of a run applied, `quietAt` that of the latest Start, Continue or Timing Clock (R540); `tapStopped`
says that the waiting reading of T3 begins a sequence, `tapEnded` that the next one does (R560). -/
structure Tempo where
  ctrs : List Ctr
  ticks : Nat
  running : Bool
  j : Nat
  m : Nat
  grid : Nat
  tempo : Nat
  origin : Bool
  ext : Bool
  k : Option Int
  waiting : Bool
  catchTo : Option Nat
  clkRun : Nat
  clkLast : Option Time
  quietAt : Time
  clks : List Nat
  tapStopped : Bool
  tapEnded : Bool
  taps : List Nat
  lanes : List Lane
  keys : List (List Key)
  writes : List (Nat × CWrite)
  events : List (Nat × Nat)
  tempoChg : List (Nat × Nat)
  tempoLive : Nat
deriving DecidableEq, Repr

/-! ### Mix, effects and chain -/

/-- A value that moves from `v0` to `v1` in `n` frames: frame `start + k` has the fraction `(k + 1) / n` of the way (R622). -/
structure Ramp where
  v0 : Rat
  v1 : Rat
  start : Nat
  n : Nat
deriving DecidableEq, Repr

/-- A gain that moves from `v0` towards `v1` by `1 / n` in each frame from `start` on (R623, R665). -/
structure Slide where
  v0 : Rat
  v1 : Rat
  start : Nat
  n : Nat
deriving DecidableEq, Repr

/-- The settings of the mix as events leave them (14, 20): index, mute, source, profile, the ramps of volume (dB), gM, gsP and gsV, the
wet levels, the duck enables. -/
structure MixRec where
  index : Nat
  muted : Bool
  source : Nat
  profile : Nat
  vol : Ramp
  gM : Slide
  gsP : Slide
  gsV : Slide
  wet : List W32
  duckA : Bool
  duckB : Bool
deriving DecidableEq, Repr

/-- The profile gain (R631, R636): the profile in force, its gP ramp, and the frame Z of the latest change until frame Z + 4. -/
structure ProfileRun where
  now : Nat
  gP : Slide
  z : Option Nat
deriving DecidableEq, Repr

/-- The states of a second-order section (R584). -/
structure Sec where
  x1 : W32
  x2 : W32
  y1 : W32
  y2 : W32
deriving DecidableEq, Repr

/-- One speaker chain (R625 to R630): DC block, sections, LIM state, the gains gt and h of R627 newest first, the DEC8 histories of the limiter
input and of the sample, the excursion model, the PWR state, the target of gT and gT in dB. -/
structure Chain where
  dc : Sec
  secs : List Sec
  lim : W32
  gts : List W32
  hs : List W32
  limIn : List W32
  outs : List W32
  excZ : Sec
  excX : W32
  fhp : Option W32
  pwr : W32
  gtGoal : W32
  gT : W32
deriving DecidableEq, Repr

/-- The bus cells (14): part sections (four states for each part: section 0 L, R, section 1 L, R), the safe EQ of the two passthrough
channels, the chains, the chorus phase, the damping sections, the ducks in dB and the detectors of Table 13-8. -/
structure Bus where
  psec : List (List Sec)
  pass : List (List Sec)
  chains : List Chain
  chPhase : W32
  dlSec : List Sec
  rvSec : List Sec
  duckA : W32
  duckB : W32
  vup : List W32
  vur : List W32
  sil : List W32
  envP : W32
  envV : W32
deriving DecidableEq, Repr

/-- What an event does to the resampler from the strobe on with which it is stamped: the settled report (R582), its end (R583), an unlock
with the held samples (R598). -/
inductive RsTurn where
  | settled
  | settledEnd
  | unlocked (held : List W24)
deriving DecidableEq, Repr

/-- The resampler (13) after a lock: HB2, P_ref, the numbered input frames (`samples`) and the samples of the stream r (`count`), the histories
newest first (input samples for HB2; r with its instants), Pm2 at the lock, the instant of r[0] foreseen there, position and ratio in units of
2^-32, S, the entry strobe and position of fixed operation with its ratio, the row of Table 4-6, the last delivered instant, whether the input
has unlocked since, the strobe with which the lock is stamped (R577), and what takes effect at the next strobe (R45). -/
structure Rs where
  hb2 : Bool
  pref : Time
  row : Nat
  samples : Nat
  hin : List (List W24)
  count : Nat
  hr : List (List W32)
  inst : List Time
  pm2 : Time
  anchor : Time
  lastIn : Time
  placed : Bool
  psi : Int
  rho : Int
  rhoNom : Int
  acc : W32
  fixed : Option (Nat × Int)
  slipped : Bool
  feed : Option (List W24)
  since : Nat
  turns : List RsTurn
deriving DecidableEq, Repr

/-- gIN (R343 to R346): its slide, an unmute that follows at frame U with its slide, the frame Z of the latest unlock, the interval that is
placed and still to be formed, and the program words of the frames not yet computed. -/
structure Gin where
  slide : Slide
  next : Option Slide
  z : Option Nat
  pending : Option Nat
  words : List (Nat × List W32)
deriving DecidableEq, Repr

/-- One place of the output FIFO (R22): a frame, the cells whose work for it never completes (R880), its four samples, the samples of
passthrough alone (R205), the readings of VUP and VUR in dB, which channels read below -70 dBFS, the reading of ENVP, the voices sounding in
it, and whether its computation is complete. -/
structure FrameRec where
  n : Nat
  sounding : Nat
  stuck : List Nat
  samples : List W32
  pass : List W32
  vup : List W32
  vur : List W32
  quiet : List Bool
  envP : W32
  done : Bool
deriving DecidableEq, Repr

/-- The output FIFO and the release (R21, R41, R42): the frames, the frame the meadow begins next, the samples released last, the misses in a
row, the mute of R42 and its run of full slack, and the voices sounding in the latest frames (Table 7-10). -/
structure Fifo where
  frames : List FrameRec
  next : Option Nat
  out : List W32
  missRun : Nat
  muted : Bool
  fullRun : Nat
  rel : Option FrameRec
  envs : List (Nat × W32)
  counts : List (Nat × Nat)
deriving DecidableEq, Repr

/-! ### Output modulator -/

/-- A delay line (§15.4): its 32 tap code registers, each with its code in bits 5 to 0 and its parity bit in bit 6, and whether it has passed its
calibration. -/
structure DelayLine where
  regs : List (BitVec 7)
  passed : Bool
deriving DecidableEq, Repr

/-- One output channel of the modulator (15). `x` is the sample of R646, `r` and `w` the rising position and width of the latest period.
Quantities in units of 2^-16 fine unit: `w`, `e1`, `e2`, `iA` (correction of the latest period), `iB` (of the next one). `endAt` is the
instant at which the latest period ended. `riseAt` and `fallAt` are cr and cf of the latest period as far as its transitions have come, in
coarse steps (R659). `trans` counts the transitions and `periods` the periods of the frame under way. `opened`: open loop (R663); `closing`:
frames of R664 counted since a trim closed the loop; `resume`: the loop closes at the next period. `lines` are the delay lines, `active` the
active one; `cycle`: a calibration runs, `both`: of both lines, the active one first; `pair`: it is the calibration of R669, whose pair of
results Table 15-3 judges; `activeOk`: the active line's result. `susp` says that the frame under way is not counted (R662), `tapR` and
`tapF` the delay elements of the latest edges (R651). `coarse`: no line serves (R650); `fixed`: 50 % duty after an unlock (R683); `fine`,
`swap`: a line serves, or the lines swap, from the next period. `trim` is the strobe at which a trim started, `trimOver` that its search has
ended and gQ rises; `offset` the comparator-offset trim in force in microvolts; `trimDone` the frame of the last successful trim and
`trimSpan` the frames in 3600 s counted there (R885, R937); `trimFail` the instant at which the last failed one ended. -/
structure Chan where
  modulating : Bool
  x : W32
  r : Int
  w : Int
  tapR : Nat
  tapF : Nat
  e1 : Int
  e2 : Int
  iA : Int
  iB : Int
  riseAt : Option Nat
  fallAt : Option Nat
  atLimit : Nat
  trans : Nat
  periods : Nat
  endAt : Time
  susp : Bool
  badRun : Nat
  opened : Bool
  closing : Option Nat
  resume : Bool
  lines : List DelayLine
  active : Nat
  cycle : Bool
  both : Bool
  pair : Bool
  activeOk : Bool
  coarse : Bool
  fixed : Bool
  fine : Bool
  shadowEp : Bool
  failEp : Bool
  swap : Bool
  gD : Slide
  gQ : Slide
  request : Bool
  trim : Option Nat
  trimOver : Bool
  offset : Int
  trimDone : Option Nat
  trimSpan : Nat
  trimFail : Option Time
  tref : Option Int
  silRun : Nat
deriving DecidableEq, Repr

/-- The outputs: the channels, gK, whether updates of the loops are suspended by a relock or an unlock (R661), and the digital output: its
clocks, the words of OUT0 to OUT3 in the frame on the pins, and for SD_OUT0 and SD_OUT1 the bits of that frame's word set in their order
with the last bit of the set before it (R670 to R674). -/
structure Outputs where
  chans : List Chan
  gK : Slide
  held : Bool
  clocks : Bool
  words : List Int
  sets : List (List Bool)
  lastBits : List Bool
deriving DecidableEq, Repr

/-- The engine apart from its supplies, the thermos, the caddy and the cells' datapath registers: everything that a reset clears (R37) and
that the bring-up rebuilds. `now` is the latest instant an event brought in; `free` counts the free values used (the model's own field, log
5). `due` holds the thermos words that are to be written, each with the strobe that writes it. `dmem` is delay memory as the frame under way
reads it, `dmemNext` with what the bus cells have written in that frame (R385, R411). `tjChg` holds the readings of Tj by target frame,
`tjLive` the one in force for the latest frame (R27, log 72). `mixFam` is the family for which the ramps of the mix were formed (R638). -/
structure Engine where
  now : Time
  free : Nat
  mode : Mode
  modePins : Nat
  straps : Straps
  kettle : Kettle
  strobe : Strobe
  steep : Steep
  image : Image
  dials : Dials
  link : Link
  input : Input
  faults : Faults
  health : Health
  load : Load
  due : List (Nat × Nat × W16)
  evq : List Ev
  cond : Cond
  parts : List PartRec
  partChg : List (Nat × Nat × PartRec)
  live : List PartRec
  voices : List SlotCell
  gp : List GpEntry
  pinChg : List (Nat × Nat × PinAct)
  pins : Pins
  ir : Ir
  tempo : Tempo
  mix : MixRec
  mixChg : List (Nat × MixRec)
  mixLive : MixRec
  mixFam : Fam
  prof : ProfileRun
  rs : Option Rs
  rsOld : Option Rs
  gin : Gin
  bus : Bus
  fifo : Fifo
  out : Outputs
  dmem : DelayMem
  dmemNext : DelayMem
  tjChg : List (Nat × Option Int)
  tjLive : Option Int
deriving DecidableEq, Repr

/-! ## The datapath registers of a cell -/

/-- An address register Aj with its offset register Oj (R383): base, length, address, step. -/
structure AddrReg where
  b : Nat
  len : Nat
  a : Nat
  s : Int
deriving DecidableEq, Repr

/-- The registers of one cell (Table 9-1): accumulator, result words (`out2` is the fraction of PHS), local memory and the two register
banks as sparse lists that read +0 where nothing is listed, address registers, and the words of local memory, of the active and of the
shadow bank whose parity bit is wrong (R399). -/
structure Cell where
  acc : Dy
  out : W32
  out2 : W32
  localMem : List (Nat × W32)
  active : List (Nat × W32)
  shadow : List (Nat × W32)
  addr : List AddrReg
  badLocal : List Nat
  badActive : List Nat
  badShadow : List Nat
deriving DecidableEq, Repr

/-! ## The whole machine -/

/-- Why a command cannot be carried out. There is no reason: every command has an effect in every state (R400), and no operand can name a cell, a
word or a place that does not exist. -/
inductive Fault where
deriving DecidableEq, Repr

/-- Why the model does not run a command. -/
inductive Refusal where
  /-- The command has no meaning in the model yet. Safe. -/
  | notModelled (mnemonic : String)
deriving DecidableEq, Repr

/-- The state of the engine. `pending` is the queue of commands that wait; `dnew` holds the delay-memory words that the cells have stored in
the frame under way (cell, place, word), which other cells see from the next frame on (R385). -/
structure State where
  pending : List Instr
  power : Power
  thermos : Thermos
  caddy : Memory
  cells : List Cell
  dnew : List (Nat × Nat × W24)
  eng : Engine
deriving DecidableEq, Repr

/-! ## Reset -/

/-- A part record at t0, apart from CC 7 and CC 10 of the part table (R285). -/
def PartRec.zero : PartRec :=
  { cc := (List.replicate 120 0).set 11 127, bend := 8192, pressure := 0, latch := none, rpnMsb := 127, rpnLsb := 127
    bendRange := 0, bendMsb := 0, bendLsb := 0, fineMsb := 64, fineLsb := 0, coarseMsb := 64, coarseLsb := 0, porta := none
    bank := 0, patchNo := 0, patch := none, macros := List.replicate 8 ⟨0#32, 0#32, 0, 0⟩ }

/-- A section with +0 states (R589). -/
def Sec.zero : Sec := ⟨0#32, 0#32, 0#32, 0#32⟩

/-- A speaker chain at its start. -/
def Chain.zero : Chain :=
  { dc := Sec.zero, secs := List.replicate 16 Sec.zero, lim := 0#32, gts := [], hs := [], limIn := [], outs := [], excZ := Sec.zero
    excX := 0#32, fhp := none, pwr := 0#32, gtGoal := 0#32, gT := 0#32 }

/-- An output channel before it modulates. -/
def Chan.zero : Chan :=
  { modulating := false, x := 0#32, r := 0, w := 0, tapR := 0, tapF := 0, e1 := 0, e2 := 0, iA := 0, iB := 0, riseAt := none, fallAt := none, atLimit := 0,
    trans := 0, periods := 0, endAt := 0, susp := false, badRun := 0
    opened := false, closing := none, resume := false, lines := List.replicate 2 ⟨List.replicate 32 0#7, false⟩, active := 0, cycle := false
    both := false, pair := false, activeOk := false, coarse := true, fixed := false, fine := false, shadowEp := false, failEp := false, swap := false
    gD := ⟨1, 1, 0, 1⟩, gQ := ⟨1, 1, 0, 1⟩, request := false, trim := none, trimOver := false, offset := 0,
    trimDone := none, trimSpan := 0, trimFail := none, tref := none, silRun := 0 }

/-- The kettle after a reset; the crystal oscillator runs through a reset while VPLL is valid (Table 2-6). -/
def Kettle.zero : Kettle :=
  { crystal := false, crystalAt := 0, startRaised := false, down := none, fam := .f48, loopAt := none, locked := false, firstLock := false
    tLock := 0, tRel := 0, tRT := 0, carrier := false, origin := 0, carrierK := 0, handback := false, clamp := false, relock := .none
    recovery := false, place := false, other := none, refRaised := false, track := .off, steer := 0, settled := false
    rate := 0, phRef := 0, phAt := none }

/-- Steep before its first step. -/
def Steep.zero : Steep :=
  { b1 := false, b3 := false, b4 := false, b5 := false, b6 := false, b7 := false, b8 := false, b9 := false, b10 := false, halted := false
    late := false, p := none, f := none, held := [], heldOver := false, heldRt := none, irHold := [], chime := false, chimeEnd := 0
    index0 := 0, muted0 := false, xAt := none, xFam := .f48, restore := false }

/-- The dial converter after a reset (R253). -/
def Dials.zero : Dials :=
  { chans := List.replicate 16 ⟨[], false, false, false, false, false, false, 0⟩, prep := List.replicate 12 none
    ladders := List.replicate 12 ⟨none, none, 0, none⟩, done := none, hold := false, badBg := 0, badGnd := 0, goodBg := 0, goodGnd := 0
    vbat := none, tj := none, battery := 0 }

/-- The event port after a reset (R306). -/
def Link.zero : Link :=
  { armed := false, sync := false, tr := none, ref := none, parser := ⟨none, none, [], false⟩, framing := 0, syncFail := 0
    partialCount := 0, overrun := 0, syncRaised := false, rx := [], rxStart := none, seq := 0#8, txUntil := 0, txBytes := []
    regularDue := false, loadDue := false, peak := List.replicate 4 0#32, cand := [], candFrom := 0 }

/-- The program input after a reset (R346, R358). -/
def Input.zero : Input :=
  { locked := false, row := 15, c := 0, pm := 0, pref := 0, periods := [], start := none, expect := 0, ws := false, prevGood := true
    errRun := 0, hold := List.replicate 4 0#24, lastInst := 0, rateRaised := false, runFrom := 0 }

/-- The ROM's nominal calibration (Table 18-7): TJ_A 375.0, TJ_B -600.0. -/
def Calib.zero : Calib := ⟨0x43BB8000#32, 0xC4160000#32, 32, 32, 32, List.replicate 8 8⟩

/-- The conductor after a reset (R50). -/
def Cond.zero : Cond :=
  { slots := List.replicate 256 ⟨none, 0⟩, queues := List.replicate 256 [], noteStacks := List.replicate 16 [], glide := List.replicate 16 none
    vel := List.replicate 16 0, ends := [], nextId := 0, order := 0, limit := 0, fenceOn := false, ceiling := none, lastShed := none
    run96 := 0 }

/-- The tempo counters after a reset (R568); the lane generators hold the seeds of R557. -/
def Tempo.zero : Tempo :=
  { ctrs := List.replicate 16 ⟨0, 0, 0, false, 0, 0, false, none, none, 0, none, false, 0, 0, 0, 0, none⟩, ticks := 0, running := false
    j := 0, m := 0, grid := 1200, tempo := 1200, origin := false, ext := false, k := none, waiting := false, catchTo := none, clkRun := 0
    clkLast := none, quietAt := 0, clks := [], tapStopped := false, tapEnded := false, taps := []
    lanes := (List.range 4).map fun m => ⟨none, false, none, 0, false, -1, true, 0, none, false, none, none, BitVec.ofNat 16 (0xACE1 + m)⟩
    keys := List.replicate 16 [], writes := [], events := [], tempoChg := [], tempoLive := 1200 }

/-- The mix before the record in force sets it. -/
def MixRec.zero : MixRec :=
  { index := 0, muted := false, source := 0, profile := 0, vol := ⟨-96, -96, 0, 1⟩, gM := ⟨1, 1, 0, 1⟩, gsP := ⟨1, 1, 0, 1⟩
    gsV := ⟨1, 1, 0, 1⟩, wet := List.replicate 3 0#32, duckA := false, duckB := false }

/-- The bus cells after a reset. -/
def Bus.zero : Bus :=
  { psec := List.replicate 16 (List.replicate 4 Sec.zero), pass := List.replicate 2 (List.replicate 2 Sec.zero)
    chains := List.replicate 4 Chain.zero, chPhase := 0#32, dlSec := List.replicate 2 Sec.zero, rvSec := List.replicate 8 Sec.zero
    duckA := 0#32, duckB := 0#32, vup := List.replicate 4 0#32, vur := List.replicate 4 0#32, sil := List.replicate 4 0#32, envP := 0#32
    envV := 0#32 }

/-- A slot's cell that holds no voice. -/
def SlotCell.zero : SlotCell :=
  { voice := none, tail := none, word := 0#32, tailWord := 0#32, pan := 0#32, part := 0, noise := [] }

/-- The engine held in reset: everything cleared (R37, log 1). -/
def Engine.cleared : Engine :=
  { now := 0, free := 0, mode := .play, modePins := 0, straps := ⟨15, 15, 15, 15⟩, kettle := Kettle.zero, strobe := ⟨false, 0, 0, 0⟩
    steep := Steep.zero
    image := ⟨none, none, List.replicate 4 none, List.replicate 16 none, none, Calib.zero⟩
    dials := Dials.zero, link := Link.zero, input := Input.zero, faults := ⟨[], [], false, [], none, false, 0⟩
    health := ⟨List.replicate 192 ⟨.idle, false, 0, none, false, 0, 0, 0, false⟩, [], 0, false, 0, [], [], 0⟩
    load := ⟨false, none, none, none, none, 0, 0⟩, due := [], evq := [], cond := Cond.zero
    parts := List.replicate 16 PartRec.zero, partChg := [], live := List.replicate 16 PartRec.zero
    voices := List.replicate 256 SlotCell.zero
    gp := List.replicate 16 ⟨false, false, false, false, 0, 0, 0, 0, false, 0, false⟩, pinChg := []
    pins := ⟨false, false, List.replicate 16 (.input .down)⟩, ir := ⟨none, false, 0⟩, tempo := Tempo.zero, mix := MixRec.zero, mixChg := []
    mixLive := MixRec.zero, mixFam := .f48, prof := ⟨0, ⟨1, 1, 0, 1⟩, none⟩, rs := none, rsOld := none, gin := ⟨⟨0, 0, 0, 1⟩, none, none, none, []⟩
    bus := Bus.zero, fifo := ⟨[], none, List.replicate 4 0#32, 0, false, 0, none, [], []⟩
    out := ⟨List.replicate 4 Chan.zero, ⟨1, 1, 0, 1⟩, false, false, List.replicate 4 0, [[], []], [false, false]⟩,
     dmem := [], dmemNext := [], tjChg := [], tjLive := none }

/-- A cell after a reset (R394): every word +0, every address register at its base. -/
def Cell.zero : Cell :=
  { acc := ⟨0, 0⟩, out := 0#32, out2 := 0#32, localMem := [], active := [], shadow := [], addr := List.replicate 8 ⟨0, 1024, 0, 0⟩, badLocal := []
    badActive := [], badShadow := [] }

/-- The machine after power has come up with RESET_N held low and the power-on reset released (log 4). The thermos and the caddy, which
survive a reset (Table 1-7), hold what log 2 and log 3 say. -/
def State.reset : State :=
  { pending := []
    power := ⟨false, false, false, [], false⟩
    thermos := ⟨List.replicate 64 0#16, 0#16, true⟩
    caddy := []
    cells := List.replicate 192 Cell.zero
    dnew := []
    eng := Engine.cleared }

end Sys2Proof.Machine
end

