-- ==== Sys2Proof/Machine/Image.lean ====
section
/-! DEFINITION. The bank image as the engine reads it: slot encodings (19, 20), patch and system slots with their ROM defaults
(R792, R793), the directory and calibration copies (17), and the format checks of bring-up (18). -/

namespace Sys2Proof.Machine

/-! ## Slot encodings (Table 19-1, R801 to R804) -/

/-- ⟨n / d⟩. -/
def q32 (n : Int) (d : Nat := 1) : W32 := ofRat ((n : Rat) / (d : Rat))

/-- U32, limited to `lo` to `hi`. -/
def slotU (lo hi : Nat) (w : W32) : Nat := max lo (min hi w.toNat)

/-- An enumeration 0 to `top`; every other value as `other` (R803). -/
def slotE (top other : Nat) (w : W32) : Nat := if w.toNat ≤ top then w.toNat else other

/-- S32, limited to `lo` to `hi`. -/
def slotS (lo hi : Int) (w : W32) : Int := max lo (min hi w.toInt)

/-- F32, limited with MAX and MIN to its range. -/
def slotF (lo hi : W32) (w : W32) : W32 := fClamp lo hi w

/-- FLG: bit [0]. -/
def slotB (w : W32) : Bool := w.getLsbD 0

/-- Bits [hi:lo] of a packed slot. -/
def slotBits (hi lo : Nat) (w : W32) : Nat := w.toNat / 2 ^ lo % 2 ^ (hi + 1 - lo)

/-! ## Defaults -/

/-- R792: the ROM patch, slot by slot (19). -/
def patchDefault (s : Nat) : W32 :=
  if s = 0x005 then 256#32
  else if s = 0x006 then 2#32
  else if s = 0x009 then 2#32
  else if s = 0x00A then q32 10
  else if s = 0x00B then q32 1 2
  else if s = 0x00C then q32 2
  else if 0x020 ≤ s ∧ s < 0x080 then
    let o := (s - 0x020) % 0x18
    if o = 0 then (if s = 0x020 then 1#32 else 0#32)
    else if o = 1 then 2#32
    else if o = 2 then 0xFFFF#32
    else if o = 6 then 1#32
    else if o = 7 then q32 1 2
    else 0#32
  else if s = 0x080 ∨ s = 0x081 then q32 (-100)
  else if s = 0x091 ∨ s = 0x0A9 then q32 120
  else if s = 0x095 then q32 1 2
  else if s = 0x0C0 then q32 (-6)
  else if s = 0x0C1 then q32 1 2
  else if 0x0D0 ≤ s ∧ s < 0x110 then
    let o := s % 0x10
    if o = 1 then q32 5 1000
    else if o = 4 ∨ o = 6 then q32 3 10
    else if o = 5 then q32 7 10
    else 0#32
  else if s = 0x112 ∨ s = 0x122 then q32 5
  else if s = 0x113 ∨ s = 0x123 then 6#32
  else if s = 0x192 then 1#32
  else if s = 0x193 then 4#32
  else if s = 0x194 ∨ s = 0x195 then q32 1 2
  else if s = 0x198 then 100#32
  else if s = 0x199 then 16#32
  else if 0x1A0 ≤ s ∧ s ≤ 0x1AF then 1#32
  else if 0x1B0 ≤ s ∧ s < 0x1D0 ∧ s % 4 = 2 then q32 1
  else if 0x1D0 ≤ s ∧ s ≤ 0x1D8 then q32 (s - 0x1D0 : Nat) 8
  else if 0x1E0 ≤ s ∧ s ≤ 0x1E8 then q32 ((s : Int) - 0x1E4) 4
  else 0#32

/-- Table 20-3: the defaults of a section record at offset `o`. -/
def recordDefault (o : Nat) : W32 := if o = 1 then q32 1000 else if o = 2 then q32 7071 10000 else 0#32

/-- R793: the ROM system section, slot by slot (20). -/
def sysDefault (s : Nat) : W32 :=
  if s = 0x005 then 4#32
  else if 0x008 ≤ s ∧ s ≤ 0x00B then 16#32
  else if 0x010 ≤ s ∧ s ≤ 0x013 then BitVec.ofNat 32 (s - 0x010)
  else if s = 0x018 then q32 1
  else if s = 0x01B then 100#32
  else if s = 0x020 then 160#32
  else if s = 0x023 then 1200#32
  else if 0x040 ≤ s ∧ s < 0x100 then
    let o := s % 0x10
    if o = 1 then 0x020#32
    else if o = 2 then 0xFDF#32
    else if o = 3 then 6#32
    else if o = 6 then 3#32
    else if 8 ≤ o then 0x00000FFF#32
    else 0#32
  else if 0x100 ≤ s ∧ s < 0x300 then
    let o := s % 0x20
    if o = 0 then 1#32
    else if o = 3 then 100#32
    else if o = 4 then 64#32
    else if 0x10 ≤ o ∧ o < 0x1C then recordDefault ((o - 0x10) % 6)
    else 0#32
  else if 0x300 ≤ s ∧ s < 0x400 then (if s % 4 = 3 then 0x000C8190#32 else 0#32)
  else if 0x400 ≤ s ∧ s < 0x480 then
    let o := s % 8
    if o = 2 then 1#32
    else if o = 3 then 10#32
    else if o = 4 then 0x000C8190#32
    else if o = 5 then 0x0000FF00#32
    else if o = 6 then q32 (-20)
    else if o = 7 then q32 1
    else 0#32
  else if 0x580 ≤ s ∧ s < 0x5C0 then
    if s = 0x580 then q32 8 else if s = 0x581 then q32 2 else if s = 0x582 then q32 1 2
    else if s = 0x588 then q32 375 else if s = 0x589 then q32 35 100 else if s = 0x58A then q32 8000
    else if s = 0x590 then q32 2 else if s = 0x591 then q32 6000 else if s = 0x592 then q32 20
    else if s = 0x599 ∨ s = 0x5A1 then q32 (-30) else if s = 0x59A ∨ s = 0x5A2 then q32 12
    else if s = 0x59B ∨ s = 0x5A3 then q32 10 else if s = 0x59C ∨ s = 0x5A4 then q32 300
    else if s = 0x5A9 then 1#32 else if s = 0x5AA then q32 (-40)
    else 0#32
  else if 0x600 ≤ s ∧ s < 0x700 then
    let o := s % 0x10
    if o = 0 ∨ o = 2 then 1#32 else if o = 1 ∨ o = 3 then 2#32 else 0#32
  else if 0x700 ≤ s ∧ s < 0x1000 then
    let o := (s - 0x700) % 0x80
    if o < 0x60 then
      if o = 0 then 5#32 else if o = 1 then q32 150
      else if o = 6 then 4#32 else if o = 7 then q32 6000
      else recordDefault (o % 6)
    else if o = 0x60 then q32 (-6) else if o = 0x63 then q32 (-6) else if o = 0x64 then q32 100
    else if o = 0x67 then q32 60 else if o = 0x68 then q32 7 10 else if o = 0x69 then q32 2
    else if o = 0x6A then q32 3 else if o = 0x6B then q32 40 else if o = 0x6D then q32 20
    else if o = 0x6E then q32 5 else if o = 0x6F then q32 2 else if o = 0x70 then q32 150
    else if o = 0x71 then q32 10
    else 0#32
  else 0#32

/-- Slot `s` of the patch at caddy byte `p`; the ROM patch when there is none (R775, R792). -/
def patchSlot (c : Memory) (p : Option Nat) (s : Nat) : W32 :=
  match p with
  | none => patchDefault s
  | some b => caddyWord c (b + 4 * s)

/-- Slot `s` of the system section in force (R784, R793). -/
def sysSlot (c : Memory) (im : Image) (s : Nat) : W32 :=
  match im.sys with
  | none => sysDefault s
  | some b => caddyWord c (b + 4 * s)

/-- R791: the patch that a selection of patch `p` in bank `b` resolves to. -/
def resolvePatch (im : Image) (b p : Nat) : Option Nat :=
  match (im.banks[b]?).join with
  | none => none
  | some s => some (s.base + 2048 * (if p < s.len / 2048 then p else 0))

/-! ## Wave items (18.5) -/

/-- A wave item that is present (R779): KIND, loop mode, wavetable frames, first data byte in the caddy, stored samples, root,
rate and points. -/
structure Wave where
  kind : Nat
  loop : Nat
  frames : Nat
  base : Nat
  length : Nat
  root : W32
  rate : W32
  s0 : Nat
  s1 : Nat
  ls : Nat
  le : Nat
deriving DecidableEq, Repr

/-- R782, R779: the item that a wave reference names, when it is present. -/
def waveItem (c : Memory) (im : Image) (ref : Nat) : Option Wave :=
  match (im.waves[ref / 4096 % 16]?).join with
  | none => none
  | some s =>
    let i := ref % 4096
    if caddyHalf c (s.base + 4) ≤ i then none
    else
      let a := s.base + 16 + 40 * i
      let w (o : Nat) : W32 := caddyWord c (a + o)
      let kind := (caddyGet c a).toNat
      let loop := (caddyGet c (a + 1)).toNat % 4
      let frames := caddyHalf c (a + 2)
      let offset := (w 4).toNat
      let length := (w 8).toNat
      let item : Wave := ⟨kind, if loop = 3 then 0 else loop, frames, s.base + offset, length, w 12, w 16,
        (w 20).toNat, (w 24).toNat, (w 28).toNat, (w 32).toNat⟩
      let rootOk := fLe (q32 0) (w 12) && fLe (w 12) (q32 127) && fLe (q32 1000) (w 16) && fLe (w 16) (q32 192000)
      if kind = 1 then
        if frames ≤ 256 ∧ length = 4080 * frames ∧ offset % 2 = 0 ∧ offset + 2 * length ≤ s.len then some item else none
      else if kind = 2 then
        if 1 ≤ length ∧ offset % 2 = 0 ∧ offset + 2 * length ≤ s.len ∧ rootOk then some item else none
      else if kind = 3 then
        if 1 ≤ length ∧ offset + length ≤ s.len ∧ rootOk then some item else none
      else none

/-- R781: sample `j` of a sample item as a binary32 word. -/
def waveSample (c : Memory) (w : Wave) (j : Nat) : W32 :=
  if w.kind = 3 then ldu (caddyGet c (w.base + j))
  else ld16 (BitVec.ofNat 16 (caddyHalf c (w.base + 2 * j)))

/-- R780: sample `i` of level `lev` of frame `fr` of a wavetable. -/
def tableSample (c : Memory) (w : Wave) (fr lev i : Nat) : W32 :=
  ld16 (BitVec.ofNat 16 (caddyHalf c (w.base + 8160 * fr + 2 * (4096 - 4096 / 2 ^ lev) + 2 * i)))

/-! ## Directory and calibration copies (17.3, 17.4) -/

/-- The bytes of a check word match its field. -/
def crcOk (c : Memory) (a n field : Nat) : Bool := crc32c (caddyRange c a n) == caddyWord c field

/-- First byte of sector `s`. -/
def sectorByte (s : Nat) : Nat := 4096 * s

/-- First byte of directory copy `k` (0 A, 1 B). -/
def dirBase (k : Nat) : Nat := sectorByte (2 + k)

/-- First byte of calibration copy `k`. -/
def calBase (k : Nat) : Nat := sectorByte k

/-- Directory entry `i` of the copy at byte `a`. -/
def readEntry (c : Memory) (a i : Nat) : DirEntry :=
  let b := a + 64 + 16 * i
  ⟨caddyHalf c b, caddyHalf c (b + 4), caddyHalf c (b + 6), (caddyWord c (b + 8)).toNat, caddyWord c (b + 12)⟩

/-- An ID of Table 17-3 other than the calibration section. -/
def contentId (id : Nat) : Bool :=
  decide (id ≤ 3) || (decide (0x0100 ≤ id) && decide (id ≤ 0x010F)) || decide (id = 0x0200)

/-- The number of sectors of a length (R729). -/
def sectorsOf (len : Nat) : Nat := (len + 4095) / 4096

/-- The entry conditions of R731 for one entry. -/
def entryOk (e : DirEntry) : Bool :=
  contentId e.id && decide (1 ≤ e.length) && decide (e.nsec = sectorsOf e.length) && decide (4 ≤ e.start) &&
    decide (e.start + e.nsec ≤ 1024)

/-- Two entries neither share an ID nor a sector. -/
def entriesApart (a b : DirEntry) : Bool :=
  decide (a.id ≠ b.id) && (decide (a.start + a.nsec ≤ b.start) || decide (b.start + b.nsec ≤ a.start))

/-- Every two entries of a list stand apart. -/
def allApart : List DirEntry → Bool
  | [] => true
  | e :: es => es.all (entriesApart e) && allApart es

/-- R731: directory copy `k` when it is valid. -/
def readDirectory (c : Memory) (k : Nat) : Option Directory :=
  let a := dirBase k
  let count := caddyHalf c (a + 8)
  if caddyWord c a = 0x52494443#32 ∧ crcOk c a 60 (a + 60) ∧ count ≤ 21 ∧ crcOk c (a + 64) (16 * count) (a + 16) then
    let es := (List.range count).map (readEntry c a)
    if es.all entryOk && allApart es then some ⟨k, (caddyWord c (a + 4)).toNat, caddyWord c (a + 12), es⟩ else none
  else none

/-- R732: the directory in force. -/
def directoryInForce (c : Memory) : Option Directory :=
  match readDirectory c 0, readDirectory c 1 with
  | some a, some b => if a.gen < b.gen then some b else some a
  | some a, none => some a
  | none, b => b

/-- GEN of a copy whose HCRC matches and whose MAGIC is one of Table 17-4; 0 otherwise. -/
def copyGen (c : Memory) (k : Nat) : Nat :=
  let a := dirBase k
  if (caddyWord c a = 0x52494443#32 ∨ caddyWord c a = 0x59544D45#32) ∧ crcOk c a 60 (a + 60) then (caddyWord c (a + 4)).toNat
  else 0

/-- R733: the generation g. -/
def generation (c : Memory) : Nat := max (copyGen c 0) (copyGen c 1)

/-- R736: SEQ and data length of calibration copy `k` when it is valid. -/
def readCal (c : Memory) (k : Nat) : Option (Nat × Nat) :=
  let a := calBase k
  let len := (caddyWord c (a + 8)).toNat
  if caddyWord c a = 0x4C414343#32 ∧ crcOk c a 60 (a + 60) ∧ 1 ≤ len ∧ len ≤ 4032 ∧ crcOk c (a + 64) len (a + 12) then
    some ((caddyWord c (a + 4)).toNat, len)
  else none

/-- R736: the calibration copy in force. -/
def calInForce (c : Memory) : Option Nat :=
  match readCal c 0, readCal c 1 with
  | some a, some b => if a.1 < b.1 then some 1 else some 0
  | some _, none => some 0
  | none, some _ => some 1
  | none, none => none

/-- R737: the highest SEQ of any valid copy, 0 when none is valid. -/
def calSeq (c : Memory) : Nat := max (((readCal c 0).map (·.1)).getD 0) (((readCal c 1).map (·.1)).getD 0)

/-- Table 18-7. -/
def calNominal : Calib := ⟨q32 375, q32 (-600), 32, 32, 32, List.replicate 8 8⟩

/-- R785: the fields of the calibration copy `k`, when it keeps the format. -/
def readCalib (c : Memory) (k len : Nat) : Option Calib :=
  let a := calBase k + 64
  let g := (List.range 8).map fun i => (caddyGet c (a + 16 + i)).toNat
  let b (o : Nat) : Nat := (caddyGet c (a + o)).toNat
  let ta := caddyWord c (a + 4)
  let tb := caddyWord c (a + 8)
  if len = 64 ∧ caddyHalf c a = 1 ∧ caddyHalf c (a + 2) = 64 ∧ fLe 0#32 ta ∧ fLe ta (q32 1000) ∧ fLe (q32 (-2000)) tb ∧
      fLe tb (q32 (-100)) ∧ b 12 ≤ 63 ∧ b 13 ≤ 63 ∧ b 14 ≤ 63 ∧ g.all (fun x => decide (x ≤ 15)) then
    some ⟨ta, tb, b 12, b 13, b 14, g⟩
  else none

/-- The entry of an ID in a directory. -/
def findEntry (d : Directory) (id : Nat) : Option DirEntry := d.entries.find? fun e => decide (e.id = id)

/-- The section's bytes match its SCRC. -/
def sectionCrcOk (c : Memory) (e : DirEntry) : Bool := crc32c (caddyRange c (sectorByte e.start) e.length) == e.scrc

/-- The format rules of 18 for one content section (R774, R778, R784). -/
def formatOk (c : Memory) (e : DirEntry) : Bool :=
  let a := sectorByte e.start
  if e.id ≤ 3 then decide (e.length % 2048 = 0) && decide (e.length ≤ 262144)
  else if e.id = 0x0200 then decide (e.length = 16384)
  else
    let n := caddyHalf c (a + 4)
    decide (caddyWord c a = 0x56415757#32) && decide (1 ≤ n) && decide (n ≤ 4095) && decide (16 + 40 * n ≤ e.length)

/-- A content section that passes its check and its format rules (R772). -/
def sectionOf (c : Memory) (e : DirEntry) : Option Section :=
  if sectionCrcOk c e && formatOk c e then some ⟨sectorByte e.start, e.length⟩ else none

/-- The section of an ID, when the directory lists it and it is valid. -/
def sectionOfId (c : Memory) (d : Option Directory) (id : Nat) : Option Section :=
  match d.bind (findEntry · id) with
  | none => none
  | some e => sectionOf c e

/-- The image before B3: nothing is in force. -/
def Image.none : Image := ⟨Option.none, Option.none, List.replicate 4 Option.none, List.replicate 16 Option.none, Option.none, calNominal⟩

/-- The calibration copy in force with its fields (R736, R773). -/
def calRead (c : Memory) : Option (Nat × Calib) :=
  match calInForce c with
  | none => none
  | some k =>
    match readCal c k with
    | none => none
    | some (_, len) => (readCalib c k len).map fun f => (k, f)

/-- The calibration copy in force, where there is one. -/
def calCopyOf (c : Memory) : Option Nat := (calRead c).map fun x => x.1

/-- The calibration in force (R787). -/
def calOf (c : Memory) : Calib := ((calRead c).map fun x => x.2).getD calNominal

end Sys2Proof.Machine
end

