-- ==== Sys2Proof/Machine/Ops.lean ====
section
/-! DEFINITION. The shared operations: time and frame counts (00, R937), the stamp of an event (R26), raising a fault (R863), writing
a thermos word (R106), and the transmitter (R300). -/

namespace Sys2Proof.Machine

/-! ## Time -/

/-- `n` milliseconds. -/
def msT (n : Nat) : Time := ((393216 * n : Nat) : Rat)

/-- `n` microseconds. -/
def usT (n : Nat) : Time := ((393216 * n : Nat) : Rat) / 1000

/-- FS_INT in Hz (Table 0-4). -/
def fsInt : Fam → Nat
  | .f48 => 96000
  | .f44 => 88200

/-- One frame (R9, Table 0-4). -/
def frameT (f : Fam) : Time := 393216000 / (fsInt f : Rat)

/-- R937: the number of frames in the duration `s` seconds. -/
def framesOf (f : Fam) (s : Rat) : Nat := (s * (fsInt f : Rat) + 1 / 2).floor.toNat

/-- R937: the number of ticks in the duration `s` seconds. -/
def ticksOf (f : Fam) (s : Rat) : Nat := (s * 4 * (fsInt f : Rat) + 1 / 2).floor.toNat

/-- The number of frames in `n` milliseconds (R937). -/
def framesMs (f : Fam) (n : Nat) : Nat := framesOf f ((n : Rat) / 1000)

/-- An instant counted in whole crystal periods from t0 (R181, R184). -/
def periodsAt (t : Time) : Nat := (t / 16).floor.toNat

/-- The other family. -/
def Fam.other : Fam → Fam
  | .f48 => .f44
  | .f44 => .f48

/-! ## Lists -/

/-- `l` with element `i` mapped by `f`; `l` itself where there is no such element. -/
def updAt {α : Type} (f : α → α) : Nat → List α → List α
  | _, [] => []
  | 0, a :: l => f a :: l
  | i + 1, a :: l => a :: updAt f i l

/-- Element `i`, or `d`. -/
def nth {α : Type} (d : α) (l : List α) (i : Nat) : α := (l[i]?).getD d

/-! ## Strobes (R133, R143 to R145) -/

/-- The instant of carrier strobe `k` after the origin: in the 44.1 kHz family on the last crystal edge not later than its exact instant
(R144). -/
def carrierAt (f : Fam) (origin : Time) (k : Nat) : Time :=
  match f with
  | .f48 => origin + ((4096 * k : Nat) : Rat)
  | .f44 => ((16 * (origin / 16 + ((k * 122880 : Nat) : Rat) / 441).floor : Int) : Rat)

/-- One frame of the loop with its word-clock correction (R139). -/
def loopFrame (k : Kettle) : Time := frameT k.fam * (1 + (k.steer : Rat) / 1000000000000)

/-- The instant of the next strobe; none while nothing paces (R132, R43). -/
def nextStrobe (e : Engine) : Option Time :=
  let k := e.kettle
  if !k.crystal then none
  else if k.carrier then some (carrierAt k.fam k.origin (k.carrierK + 1))
  else if !k.firstLock then none
  else if e.strobe.started then some (e.strobe.last + loopFrame k)
  else some (k.tLock + frameT k.fam)

/-! ## Stamps -/

/-- The instant of the next strobe has come: an event that completes at it counts as after it (R45). -/
def Engine.strobeDue (e : Engine) : Bool :=
  match nextStrobe e with
  | some t => decide (t ≤ e.now)
  | none => false

/-- R26, R45: the stamp of an event that completes now; 0 before strobe 0. -/
def Engine.stamp (e : Engine) : Nat := if e.strobe.started then e.strobe.n + e.strobeDue.toNat else 0

/-- R27: the frame in which an event that completes now takes effect. -/
def Engine.target (e : Engine) : Nat := e.stamp + 5

/-- F has occurred. -/
def Engine.served (e : Engine) : Bool := e.steep.f.isSome

/-- Frame `n` counts as a frame of zero samples that is complete (R939). -/
def beforeP (e : Engine) (n : Nat) : Bool :=
  match e.steep.p with
  | some p => decide (n < p)
  | none => true

/-- The moment of a fault that is raised now. -/
def Engine.moment (e : Engine) : Moment := (e.now, e.faults.epoch)

/-- R299, R866: the row that goes on bears no instant, so that what it raises comes after everything raised so far (log 96). -/
def Engine.later (e : Engine) : Engine := { e with faults := { e.faults with epoch := e.faults.epoch + 1 } }

/-- The latest instant moves to `t`; it never moves back. -/
def Engine.at (e : Engine) (t : Nat) : Engine := { e with now := max e.now (t : Rat) }

/-- The number of the next free value (log 5), and the engine after its use. -/
def Engine.useFree (e : Engine) : Nat × Engine := (e.free, { e with free := e.free + 1 })

/-! ## Faults (21) -/

/-- Table 21-4: the retained codes. -/
def faultRetained (code : Nat) : Bool :=
  [0x01, 0x04, 0x10, 0x11, 0x12, 0x13, 0x14, 0x16, 0x17, 0x19, 0x1B, 0x1D, 0x1F, 0x20, 0x21, 0x24].contains code

/-- Table 21-4: the codes of class L. -/
def faultClassL (code : Nat) : Bool :=
  [0x01, 0x04, 0x05, 0x06, 0x10, 0x11, 0x12, 0x13, 0x14, 0x16, 0x17, 0x1B, 0x1D, 0x1F].contains code

/-- Table 21-4: the codes of class C. -/
def faultClassC (code : Nat) : Bool := [0x19, 0x20, 0x21, 0x37].contains code

/-- R866: a new entry takes its place before the entries of the same instant that bear a greater code. -/
def insertAt {α : Type} (later : α → Bool) (x : α) : List α → List α
  | [] => [x]
  | y :: r => if later y then x :: y :: r else y :: insertAt later x r

/-- R299: the pending FAULT records after one more raise of `code` at the moment `t`. -/
def addPend (code : Nat) (t : Moment) (l : List FaultRec) : List FaultRec :=
  if l.any fun r => r.code == code then l.map fun r => if r.code = code then { r with count := min 255 (r.count + 1) } else r
  else insertAt (fun r => decide (r.made = t) && decide (code < r.code)) ⟨code, 1, t⟩ l

/-- R865: the codes raised before F after one more raise of `code` at `t`. -/
def addEarly (code : Nat) (t : Moment) (l : List (Nat × Moment)) : List (Nat × Moment) :=
  if l.any fun x => x.1 == code then l else insertAt (fun x => decide (x.2 = t) && decide (code < x.1)) (code, t) l

/-- R108, R866: the retained code last raised, after a raise of `code` at `t`. -/
def lastRetained (code : Nat) (t : Moment) (l : Option (Nat × Moment)) : Option (Nat × Moment) :=
  match l with
  | some x => if x.2 = t ∧ code < x.1 then some x else some (code, t)
  | none => some (code, t)

/-- The event is that of a fault with a greater code. -/
def Ev.laterFault (code : Nat) : Ev → Bool
  | .fault k => decide (code < k)
  | _ => false

/-- R863, R866: raising a fault. Before strobe 0 FAULT_N falls with the raise (R868). -/
def Engine.raise (code : Nat) (e : Engine) : Engine :=
  { e with
    faults :=
      { e.faults with
        pend := addPend code e.moment e.faults.pend
        early := if e.served then e.faults.early else addEarly code e.moment e.faults.early
        latched := e.faults.latched || faultClassL code
        classC := if faultClassC code ∧ ¬ e.faults.classC.contains code then e.faults.classC ++ [code] else e.faults.classC
        last := if faultRetained code then lastRetained code e.moment e.faults.last else e.faults.last
        dirty := e.faults.dirty || faultRetained code }
    evq := if e.served then insertAt (Ev.laterFault code) (.fault code) e.evq else e.evq
    pins :=
      { e.pins with
        faultLow := e.pins.faultLow || (!e.strobe.started && (faultClassL code || faultClassC code)) } }

/-- Raising several faults. -/
def Engine.raiseAll (codes : List Nat) (e : Engine) : Engine := codes.foldl (fun e k => e.raise k) e

/-- Raising a fault when a condition holds. -/
def Engine.raiseIf (b : Bool) (code : Nat) (e : Engine) : Engine := if b then e.raise code else e

/-- An event for the bindings. -/
def Engine.emit (v : Ev) (e : Engine) : Engine := { e with evq := e.evq ++ [v] }

/-! ## FAULT_N (R867, R868) -/

/-- The condition of a raised class C fault holds (Table 21-4). -/
def conditionHolds (e : Engine) (code : Nat) : Bool :=
  if code = 0x19 then decide (13 ≤ e.health.f)
  else if code = 0x20 then e.out.chans.any fun x => x.opened || x.closing.isSome
  else if code = 0x21 then e.out.chans.any (·.failEp)
  else if code = 0x37 then e.dials.hold
  else false

/-- FAULT_N at a strobe. -/
def faultPin (e : Engine) : Engine :=
  { e with pins := { e.pins with faultLow := e.faults.latched || e.faults.classC.any (conditionHolds e) } }

/-! ## Thermos words (R106) -/

/-- A change of thermos word `i` that takes effect in the target frame of the present stamp. -/
def Engine.writeWord (i : Nat) (w : W16) (e : Engine) : Engine := { e with due := e.due ++ [(e.target, i, w)] }

/-- The check word of a record (R105): each word low byte first. -/
def thermosCrc (ws : List W16) : W16 := crc16 (List.flatMap (fun w : W16 => [BitVec.setWidth 8 w, BitVec.setWidth 8 (w >>> 8)]) ws)

/-- R107: one unit is committed, together with its check word. -/
def Thermos.commit (t : Thermos) (unit : List (Nat × W16)) : Thermos :=
  if unit.isEmpty then t
  else
    let ws := unit.foldl (fun ws p => ws.set p.1 p.2) t.words
    { t with words := ws, tc := thermosCrc ws }

/-! ## Transmitter (R300, R301) -/

/-- TXD is idle at the last strobe. -/
def Engine.txIdle (e : Engine) : Bool := e.strobe.started && decide (e.link.txUntil ≤ e.strobe.last) && e.link.tr.isSome

/-- A run of characters starts at the last strobe with the bit time in force. R301 lets the first start edge fall up to 50 ns after the
strobe; the model takes it at the strobe itself (log 105). -/
def Engine.startTx (bytes : List Byte) (e : Engine) : Engine :=
  let tr := e.link.tr.getD 0
  { e with link := { e.link with txBytes := bytes, txUntil := e.strobe.last + 10 * tr * (bytes.length : Rat) } }

/-- A counter of Table 7-10, saturating at 0xFFFF. -/
def sat16 (n : Nat) : Nat := min 0xFFFF n

end Sys2Proof.Machine
end

