-- ==== Sys2Proof/Machine/Conductor.lean ====
section
/-! DEFINITION. The conductor (10): slots, queue writes with Table 7-8, allocation, stealing, release, sustain and sostenuto, cuts, and the
deadline fence. -/

namespace Sys2Proof.Machine

/-- A free slot. -/
def Slot.empty : Slot := ⟨none, 0⟩

/-- What occupies slot `i`. -/
def Engine.occ (e : Engine) (i : Nat) : Option SlotRec := (nth Slot.empty e.cond.slots i).occ

/-- The occupied slots with their records, in ascending slot order. -/
def Engine.occupied (e : Engine) : List (Nat × SlotRec) :=
  (List.range 256).filterMap fun i => (e.occ i).map fun r => (i, r)

/-- The occupied slots of part `p`. -/
def Engine.ofPart (e : Engine) (p : Nat) : List (Nat × SlotRec) := e.occupied.filter fun x => x.2.part == p

/-- The sounding count for the target frame (R412). -/
def Engine.sounding (e : Engine) : Nat := e.occupied.length

/-- Replacing the conductor. -/
def Engine.withCond (e : Engine) (f : Cond → Cond) : Engine := { e with cond := f e.cond }

/-- The record of slot `i` mapped by `f`. -/
def Engine.mapSlot (i : Nat) (f : SlotRec → SlotRec) (e : Engine) : Engine :=
  e.withCond fun c => { c with slots := updAt (fun s => { s with occ := s.occ.map f }) i c.slots }

/-- Slot `i` is occupied by `r`. -/
def Engine.occupy (i : Nat) (r : SlotRec) (e : Engine) : Engine :=
  e.withCond fun c => { c with slots := updAt (fun s => { s with occ := some r }) i c.slots }

/-- Slot `i` is left, free for events stamped `from'` or later (R412). -/
def Engine.vacate (i from' : Nat) (e : Engine) : Engine :=
  e.withCond fun c => { c with slots := updAt (fun _ => ⟨none, from'⟩) i c.slots }

/-- The next order of completion (Table 10-4, key 4): every event that may set the state of voices takes one, so that the voices that one event
sets rank by their slots. -/
def Engine.nextOrder (e : Engine) : Engine := e.withCond fun c => { c with order := c.order + 1 }

/-- The record of part `p` (1 to 16) as the latest stamped event left it. -/
def Engine.part (e : Engine) (p : Nat) : PartRec :=
  nth ⟨[], 8192, 0, none, 127, 127, 2, 2, 0, 64, 0, 64, 0, none, 0, 0, none, []⟩ e.parts (p - 1)

/-- R281: a change to a part record, for the target frame and every later one. -/
def Engine.setPart (p : Nat) (r : PartRec) (e : Engine) : Engine :=
  { e with parts := e.parts.set (p - 1) r, partChg := e.partChg ++ [(e.target, p - 1, r)] }

/-- Controller `k` of part `p`. -/
def Engine.ccOf (e : Engine) (p k : Nat) : Nat := nth 0 (e.part p).cc k

/-- R280: the part table enables part `p`. -/
def partOn (c : Memory) (e : Engine) (p : Nat) : Bool := slotB (sysSlot c e.image (0x100 + 0x20 * (p - 1)))

/-- The note stack of part `p`. -/
def Engine.stack (e : Engine) (p : Nat) : List Nat := nth [] e.cond.noteStacks (p - 1)

/-- The note stack of part `p` becomes `l`. -/
def Engine.setStack (p : Nat) (l : List Nat) (e : Engine) : Engine :=
  e.withCond fun c => { c with noteStacks := c.noteStacks.set (p - 1) l }

/-- The patch of the part in force for an event now: MODE, CAP with the override (R424), STEAL, UNISON. -/
def partMode (c : Memory) (e : Engine) (p : Nat) : Nat := slotE 3 0 (patchSlot c (e.part p).patch 0x004)

/-- R424: Cp. -/
def partCap (c : Memory) (e : Engine) (p : Nat) : Nat :=
  let cap := slotU 1 256 (patchSlot c (e.part p).patch 0x005)
  let o := slotU 0 256 (sysSlot c e.image (0x105 + 0x20 * (p - 1)))
  if o = 0 then cap else min o cap

/-! ## Queue writes (R291 to R293, Table 7-8) -/

/-- The entry takes one of the 16 places. -/
def Entry.counts (en : Entry) : Bool := match en.act with | .steal => false | _ => true

/-- A pressure entry. -/
def Entry.isPressure (en : Entry) : Bool := match en.act with | .pressure _ => true | _ => false

/-- A note-on entry for Table 7-8 (R413). -/
def Entry.isStart (en : Entry) : Bool := match en.act with | .noteOn .. => true | .retrig .. => true | _ => false

/-- A release for Table 7-8 (R413). -/
def Entry.isEnd (en : Entry) : Bool := match en.act with | .release _ => true | .cut => true | _ => false

/-- The list without its first element that passes `p`. -/
def dropFirst {α : Type} (p : α → Bool) : List α → List α
  | [] => []
  | a :: l => if p a then l else a :: dropFirst p l

/-- The list without its last element that passes `p`. -/
def dropLastOf {α : Type} (p : α → Bool) (l : List α) : List α := (dropFirst p l.reverse).reverse

/-- A cut applied directly. -/
def Entry.isSteal (en : Entry) : Bool := match en.act with | .steal => true | _ => false

/-- R412, R941: the stamp from which slot `i` is free once its NOTE_ON `en` is lost: the one after the steal that was made for it, stamped as
the note-on was; a slot that was free then has been free all along. -/
def lostFrom (i : Nat) (en : Entry) (e : Engine) : Nat :=
  if (nth [] e.cond.queues i).any fun x => x.isSteal && x.frame == en.frame then en.frame - 4 else 0

/-- R293: what a voice's record is once a RETRIG has been lost whose former record is `old`. A voice released or deferred since stays so
(R416). -/
def SlotRec.unretrig (old r : SlotRec) : SlotRec :=
  if r.state = .held ∨ old.state = .released ∧ r.state = .deferred then
    { old with latched := if old.state = .held then r.latched else old.latched, group := r.group }
  else { r with note := old.note }

/-- R293: entry `en` of slot `i` is discarded or removed. R293 counts a note whose NOTE_ON is lost as never started and does not say whether
it stays the part's latest note-on for the glide source and the velocity of R429; in the model it does (log 106). -/
def lostEntry (i : Nat) (en : Entry) (e : Engine) : Engine :=
  match en.act with
  | .noteOn part note .. =>
    match e.occ i with
    | some r =>
      if r.id ≠ en.id then e
      else
        let e := e.vacate i (lostFrom i en e)
        let rest := r.group.filter (fun s => s != i && ((e.occ s).map (·.id) == some en.id))
        let e := rest.foldl (fun e s => e.mapSlot s fun q => { q with group := rest }) e
        if rest.isEmpty then e.setStack part ((e.stack part).filter fun k => k != note) else e
    | none => e
  | .retrig note _ _ _ former fromOn =>
    match e.occ i with
    | some r =>
      if r.id ≠ en.id then e
      else
        let e := e.mapSlot i former.unretrig
        if fromOn then e.setStack r.part ((e.stack r.part).filter fun k => k != note) else e
    | none => e
  | _ => e

/-- Queue `i`. -/
def Engine.queue (e : Engine) (i : Nat) : List Entry := nth [] e.cond.queues i

/-- Queue `i` becomes `q`. -/
def Engine.setQueue (i : Nat) (q : List Entry) (e : Engine) : Engine :=
  e.withCond fun c => { c with queues := c.queues.set i q }

/-- R292: one overflow is counted and reported. -/
def overflowed (e : Engine) : Engine :=
  ({ e with link := { e.link with overrun := sat16 (e.link.overrun + 1) } }).raise 0x30

/-- R28, R291, R292: entry `en` is written to queue `i`. -/
def writeEntry (i : Nat) (en : Entry) (e : Engine) : Engine :=
  let q := e.queue i
  let q := if en.isPressure then dropFirst Entry.isPressure q else q
  if !en.counts || decide ((q.filter Entry.counts).length < 16) then e.setQueue i (q ++ [en])
  else if q.any Entry.isPressure then overflowed (e.setQueue i (dropFirst Entry.isPressure q ++ [en]))
  else if en.isStart || en.isPressure then overflowed (lostEntry i en (e.setQueue i q))
  else
    match (q.reverse.find? Entry.isStart) with
    | some old => overflowed (lostEntry i old (e.setQueue i (dropLastOf Entry.isStart q ++ [en])))
    | none => overflowed (e.setQueue i q)

/-- R415: an entry for every slot of a voice's group, in ascending slot order. -/
def writeGroup (r : SlotRec) (a : Act) (e : Engine) : Engine :=
  r.group.foldl (fun e i => writeEntry i ⟨e.target, r.id, a⟩ e) e

/-! ## Release, deferral (R436 to R439) -/

/-- The records of a group take a state with the present stamp and the order of the present event. -/
def setState (r : SlotRec) (st : SlotState) (rel : Nat) (e : Engine) : Engine :=
  let n := e.stamp
  let o := e.cond.order
  r.group.foldl (fun e i => e.mapSlot i fun q =>
    if q.id = r.id then { q with state := st, stamp := n, order := o, relVel := rel } else q) e

/-- RELEASE is written for a voice. -/
def releaseVoice (r : SlotRec) (rel : Nat) (e : Engine) : Engine :=
  writeGroup r (.release rel) (setState r .released rel e)

/-- A note-off of a voice: RELEASE, or deferral while CC 64 is on or the voice is latched (R437); a lane note is never deferred
(R556). -/
def noteOffVoice (defer : Bool) (r : SlotRec) (rel : Nat) (e : Engine) : Engine :=
  if r.state = .released then e
  else if defer ∧ (r.latched ∨ 64 ≤ e.ccOf r.part 64) then
    (if r.state = .deferred then e else setState r .deferred rel e)
  else releaseVoice r rel e

/-- One record for each group of a list: the one in the group's lowest slot. -/
def heads (l : List (Nat × SlotRec)) : List SlotRec := (l.filter fun x => x.2.group.head? == some x.1).map (·.2)

/-- `a` comes before `b`, key by key. -/
def lexLt : List Nat → List Nat → Bool
  | a :: as, b :: bs => if a < b then true else if b < a then false else lexLt as bs
  | [], _ :: _ => true
  | _, [] => false

/-- Records in ascending order of a key. -/
def sortBy (key : SlotRec → List Nat) (l : List SlotRec) : List SlotRec :=
  l.foldr (fun r acc => acc.takeWhile (fun q => lexLt (key q) (key r)) ++ r :: acc.dropWhile (fun q => lexLt (key q) (key r))) []

/-- R438: the deferred voices of part `p` that pass `keep` are released, in the order of their note-offs. -/
def releaseDeferred (p : Nat) (keep : SlotRec → Bool) (e : Engine) : Engine :=
  (sortBy (fun r => [r.stamp, r.order]) ((heads (e.ofPart p)).filter fun r => r.state == .deferred && keep r)).foldl
    (fun e r => releaseVoice r r.relVel e) e

/-- R436: the voices of part `p` that are held become latched. -/
def latchHeld (p : Nat) (e : Engine) : Engine :=
  (e.ofPart p).foldl (fun e x => if x.2.state = .held then e.mapSlot x.1 fun q => { q with latched := true } else e) e

/-- Every latch of part `p` is cleared. -/
def unlatch (p : Nat) (e : Engine) : Engine :=
  (e.ofPart p).foldl (fun e x => e.mapSlot x.1 fun q => { q with latched := false }) e

/-! ## Steal order (Table 10-4) -/

/-- The keys of Table 10-4; class 0 ranks after class 1 and the chime after all others (R444). -/
def stealKey (r : SlotRec) : List Nat :=
  [if r.part = 0 then 9 else 3 - r.cls,
    match r.state with | .released => 0 | .deferred => 1 | .held => 2,
    r.stamp, r.order, r.group.head?.getD 0]

/-- A voice is cut by a decision stamped now: the cut is applied directly in the target frame (R435, R941) and the slots are free from
the next stamp. -/
def cutVoice (r : SlotRec) (e : Engine) : Engine :=
  r.group.foldl (fun e i => (writeEntry i ⟨e.target, r.id, .steal⟩ e).vacate i (e.stamp + 1)) e

/-- The voice limit in force (R445). -/
def Engine.limitNow (e : Engine) : Nat :=
  match e.cond.ceiling with
  | some k => min e.cond.limit k
  | none => e.cond.limit

/-- R445: the fence ceiling is reached. -/
def Engine.atCeiling (e : Engine) : Bool :=
  match e.cond.ceiling with
  | some k => decide (k ≤ e.sounding)
  | none => false

/-- R427: the free slots below L for an event stamped now, in ascending order. -/
def Engine.freeSlots (e : Engine) : List Nat :=
  (List.range e.cond.limit).filter fun i =>
    let s := nth Slot.empty e.cond.slots i
    s.occ.isNone && decide (s.freeFrom ≤ e.stamp) && !(e.steep.chime && decide (240 ≤ i))

/-- R433: groups are taken from the front of `cands` until enough slots are freed. `remain` counts the part's voices left, `within` says
that the cap must be met too. The result: the taken records. -/
def takeGroups (k freeCount : Nat) (within : Bool) (cap : Nat) : List SlotRec → Nat → Nat → List SlotRec
  | [], _, _ => []
  | r :: rs, freed, remain =>
    if k ≤ freed + freeCount ∧ (within = false ∨ remain + k ≤ cap) then []
    else r :: takeGroups k freeCount within cap rs (freed + r.group.length) (remain - r.group.length)

/-- R431 to R433: the slots for a note of `k` voices of part `p`, after any steal; the stolen slots come first. -/
def findSlots (p k cap : Nat) (e : Engine) : List Nat × Engine :=
  let free := e.freeSlots
  let mine := e.ofPart p
  let within := decide (cap < mine.length + k)
  let ceil := e.atCeiling
  if !within && decide (k ≤ free.length) && !ceil then (free.take k, e)
  else
    let pool := if within then mine else e.occupied.filter fun x => x.2.part != 0 && x.2.cls != 0
    let ranked := sortBy stealKey (heads pool)
    let taken := takeGroups k (if ceil then 0 else free.length) within cap ranked 0 mine.length
    let freed := sortSlots (taken.flatMap (·.group))
    let e := taken.foldl (fun e r => cutVoice r e) e
    ((if ceil then freed else freed ++ free).take k, e)
where
  /-- Slot numbers in ascending order. -/
  sortSlots (l : List Nat) : List Nat :=
    l.foldr (fun i acc => acc.takeWhile (fun j => decide (j < i)) ++ i :: acc.dropWhile (fun j => decide (j < i))) []

/-- The glide source pitch of a note of part `p`: the part's most recent earlier note-on (Table 10-1). -/
def glideSource (p : Nat) (e : Engine) : Option Nat := nth none e.cond.glide (p - 1)

/-- The part's latest note-on: its note and velocity. -/
def rememberNote (p note vel : Nat) (e : Engine) : Engine :=
  e.withCond fun c => { c with glide := c.glide.set (p - 1) (some note), vel := c.vel.set (p - 1) vel }

/-- A key on the note stack of part `p` (R428): a key already present moves to the top, a 17th removes the oldest. -/
def pushKey (p note : Nat) (e : Engine) : Engine :=
  let l := (e.stack p).filter (fun k => k != note) ++ [note]
  e.setStack p (if 16 < l.length then l.drop 1 else l)

/-- A new voice or group for a note (R427, R430 to R434). -/
def startNote (c : Memory) (p note vel : Nat) (e : Engine) : Engine :=
  let patch := (e.part p).patch
  let mode := partMode c e p
  let cap := partCap c e p
  let k := if mode = 1 then min (slotU 2 8 (patchSlot c patch 0x009)) cap else 1
  let gl := glideSource p e
  let (slots, e) := findSlots p k cap e
  if slots.isEmpty then e.setStack p ((e.stack p).filter fun q => q != note)
  else
    let grp := findSlots.sortSlots slots
    let e := rememberNote p note vel e
    let id := e.cond.nextId
    let r : SlotRec := ⟨id, p, note, patch, mode, slotU 0 3 (patchSlot c patch 0x006), grp, .held, e.stamp, e.cond.order, false, 64⟩
    let e := e.withCond fun cd => { cd with nextId := id + 1 }
    let e := grp.foldl (fun e i => e.occupy i r) e
    (grp.zipIdx).foldl (fun e (x : Nat × Nat) =>
      writeEntry x.1 ⟨e.target, id, .noteOn p note vel patch x.2 grp.length gl⟩ e) e

/-- A RETRIG of a mono or legato voice in slot `i` to `note` (Table 10-1). -/
def retrigVoice (r : SlotRec) (note vel : Nat) (flag fromOn : Bool) (gl : Option Nat) (e : Engine) : Engine :=
  let n := e.stamp
  let o := e.cond.order
  match r.group.head? with
  | none => e
  | some i =>
    let e := e.mapSlot i fun q => { q with note := note, state := .held, stamp := n, order := o }
    writeEntry i ⟨e.target, r.id, .retrig note vel flag gl r fromOn⟩ e

/-- The part's voice of the mono or legato mode in force (R428). -/
def monoVoice (c : Memory) (p : Nat) (e : Engine) : Option SlotRec :=
  ((e.ofPart p).map (·.2)).find? fun r => decide (2 ≤ r.vmode) && r.vmode == partMode c e p

/-- R426 to R434: an applied note-on of part `p`; the event also goes to the bindings (Table 20-10). -/
def noteOnApply (c : Memory) (p note vel : Nat) (e : Engine) : Engine :=
  let mode := partMode c e p
  let e :=
    if mode < 2 then
      -- R426: a voice of the same note that is not in release
      let old := (heads (e.ofPart p)).filter fun r => r.note == note && r.state != .released
      startNote c p note vel (old.foldl (fun e r => releaseVoice r 64 e) e)
    else
      let empty := (e.stack p).isEmpty
      let e := pushKey p note e
      match monoVoice c p e with
      | none => startNote c p note vel e
      | some r =>
        let gl := glideSource p e
        retrigVoice r note vel (mode == 2 || empty) true gl (rememberNote p note vel e)
  e.emit (.noteOn p note)

/-- R429 and Table 10-3: an applied note-off of part `p`; `defer` is false for the notes of a lane. -/
def noteOffApply (c : Memory) (defer : Bool) (p note rel : Nat) (e : Engine) : Engine :=
  let mode := partMode c e p
  let stack := e.stack p
  let mono := monoVoice c p e
  let e :=
    if 2 ≤ mode ∧ stack.contains note then
      let top := stack.getLast? == some note
      let rest := stack.filter fun k => k != note
      let e := e.setStack p rest
      match mono with
      | none => e
      | some r =>
        if !top then e
        else match rest.getLast? with
          | some k =>
            retrigVoice r k (nth 64 e.cond.vel (p - 1)) (mode == 2) false (glideSource p e) e
          | none => noteOffVoice defer r rel e
    else e
  -- a voice's own note, apart from the mono voice whose keys the stack holds (R425)
  let own := (heads (e.ofPart p)).filter fun r =>
    r.note == note && r.state == .held &&
      !(decide (2 ≤ mode) && r.vmode == mode && (stack.contains note || !stack.isEmpty))
  let e := own.foldl (fun e r => noteOffVoice defer r rel e) e
  e.emit (.noteOff p note)

/-- Table 7-4: the pressure of a note (one entry for each slot of its group, R415). -/
def keyPressure (p note pr : Nat) (e : Engine) : Engine :=
  match (heads (e.ofPart p)).find? fun r => r.note == note && r.state != .released with
  | some r => writeGroup r (.pressure pr) e
  | none => e

/-- R440: CC 120. -/
def allSoundOffOp (p : Nat) (e : Engine) : Engine :=
  let n := e.stamp
  let e := (e.ofPart p).foldl (fun e x => (writeEntry x.1 ⟨e.target, x.2.id, .cut⟩ e).vacate x.1 (n + 1)) e
  e.setStack p []

/-- The notes of part `p` that are held and not on its stack, in ascending note number. -/
def heldNotes (p : Nat) (e : Engine) : List Nat :=
  (List.range 128).filter fun k =>
    (e.ofPart p).any (fun x => x.2.note == k && x.2.state == .held) && !(e.stack p).contains k

/-! ## The deadline fence (R443 to R446, R448) -/

/-- R444: groups are taken until at least `q` voices are. -/
def takeQuota (q : Nat) : List SlotRec → Nat → List SlotRec
  | [], _ => []
  | r :: rs, got => if q ≤ got then [] else r :: takeQuota q rs (got + r.group.length)

/-- ceil(n / k). -/
def ceilDiv (n k : Nat) : Nat := (n + k - 1) / k

/-- R443, R444, R446 at a strobe whose slack is `slack`; `base` says that strobe P has come and no relock holds the fence off. -/
def fenceStep (base : Bool) (slack : Nat) (e : Engine) : Engine :=
  let n := e.strobe.n
  let on := e.cond.fenceOn || (base && slack == 3)
  let e := e.withCond fun c => { c with fenceOn := on }
  if !on then e
  else
    let held := match e.cond.lastShed with
      | some k => decide (n ≤ k + 4)
      | none => false
    let cnt := e.sounding
    let e :=
      if slack < 2 ∧ ¬ (held = true) ∧ cnt ≠ 0 then
        let q := if slack = 1 then max 4 (ceilDiv cnt 16) else max 8 (ceilDiv cnt 8)
        let taken := takeQuota q (sortBy stealKey (heads e.occupied)) 0
        let e := taken.foldl (fun e r => cutVoice r e) e
        (e.withCond fun c => { c with lastShed := some n, ceiling := some e.sounding }).raise 0x1E
      else e
    let run := if slack = 3 then e.cond.run96 + 1 else 0
    if run = 96 then
      let k := match e.cond.ceiling with
        | some k => if e.cond.limit ≤ k + 8 then none else some (k + 8)
        | none => none
      e.withCond fun c => { c with run96 := 0, ceiling := k }
    else e.withCond fun c => { c with run96 := run }

/-- R418, R421: L becomes `l`; the voices in the slots that leave service are cut. -/
def setLimit (l : Nat) (e : Engine) : Engine :=
  let out := (heads e.occupied).filter fun r => r.group.any fun i => decide (l ≤ i)
  let e := out.foldl (fun e r => cutVoice { r with group := r.group.filter fun i => decide (l ≤ i) } e) e
  let e := out.foldl (fun e r => (r.group.filter fun i => decide (i < l)).foldl (fun e i =>
    e.mapSlot i fun q => { q with group := q.group.filter fun j => decide (j < l) }) e) e
  e.withCond fun c => { c with limit := l }

/-- R412: the voices that ended in frame `n` or earlier leave their slots. -/
def freeEnded (n : Nat) (e : Engine) : Engine :=
  let due := e.cond.ends.filter fun x => decide (x.1 ≤ n)
  let e := e.withCond fun c => { c with ends := c.ends.filter fun x => decide (n < x.1) }
  due.foldl (fun e x =>
    match e.occ x.2.1 with
    | some r =>
      if r.id = x.2.2 then
        let e := e.vacate x.2.1 0
        let rest := r.group.filter fun j => j != x.2.1
        rest.foldl (fun e j => e.mapSlot j fun q => if q.id = r.id then { q with group := rest } else q) e
      else e
    | none => e) e

/-! ## Roles (Table 10-2) -/

/-- Voice cells for `f` fenced cells; L is twice as many. -/
def voiceCells (f : Nat) : Nat := if f ≤ 12 then 128 else if f ≤ 140 then 140 - f else 0

/-- R418: the roles over the working cells, in ascending cell number: voice pairs, bus cells, spares. A spare stays eligible only where it was
so before; a cell that takes a role is tested no longer (R875, R879); a cell that has returned stays a spare until a later rotation (R420). -/
def placeRoles (v : Nat) : Nat → List CellHealth → List CellHealth
  | _, [] => []
  | k, x :: r =>
    if x.role = .fenced then x :: placeRoles v k r
    else if x.back then { x with role := .spare } :: placeRoles v k r
    else
      let role : Role := if k < v then .voice k else if k < v + 48 then .bus (k - v) else .spare
      { x with role := role, fit := x.fit && role == .spare, testing := if role = .spare then x.testing else none } :: placeRoles v (k + 1) r

end Sys2Proof.Machine
end

