-- ==== Sys2Proof/Machine/Gp.lean ====
section
/-! DEFINITION. General pins (02, 16.7 to 16.9): the takeover, sampling and debounce of inputs, pin actions, PWM and VU outputs. -/

namespace Sys2Proof.Machine

/-- Slot `o` of GP map entry `i` (Table 20-8). -/
def gpSlot (c : Memory) (im : Image) (i o : Nat) : W32 := sysSlot c im (0x400 + 8 * i + o)

/-- KIND of an entry: 0 none, 1 input, 2 output binding, 3 output VU. -/
def gpKind (c : Memory) (im : Image) (i : Nat) : Nat := slotE 3 0 (gpSlot c im i 0)

/-- CONFIG of an entry (Table 20-9). -/
def gpConfig (c : Memory) (im : Image) (i : Nat) : W32 := gpSlot c im i 2

/-- ROLE of an input entry: 0 switch, 1 tap, 2 counter source. -/
def gpRole (c : Memory) (im : Image) (i : Nat) : Nat := let r := slotBits 5 4 (gpConfig c im i); if r = 3 then 0 else r

/-- CLASS of an input entry: 0 once, 1 repeat, 2 long. -/
def gpClass (c : Memory) (im : Image) (i : Nat) : Nat := let r := slotBits 7 6 (gpConfig c im i); if r = 3 then 0 else r

/-- R703: a count of ticks. -/
def msTicks (f : Fam) (n : Nat) : Nat := max 1 (ticksOf f ((n : Rat) / 1000))

/-- Tdb of an entry. -/
def gpDebounce (c : Memory) (e : Engine) (i : Nat) : Nat := msTicks e.kettle.fam (slotU 1 50 (gpSlot c e.image i 3))

/-- Dr or Dl of a TIMES word, in ms; `long` selects Dl (Table 16-2). -/
def timesFirst (long : Bool) (w : W32) : Nat :=
  let t := slotBits 12 0 w
  if long then max 300 (min 5000 t) else max 100 (min 2000 t)

/-- Ir of a TIMES word, in ms. -/
def timesRepeat (w : W32) : Nat := max 50 (min 1000 (slotBits 25 13 w))

/-! ## Takeover (R68 to R70) -/

/-- Table 6-4 with R227: the level of STRAP_A that is used. -/
def strapAUsed (a : Nat) : Nat := if 12 ≤ a ∧ a ≤ 14 then 15 else a

/-- Table 6-4: the channel is a modulator channel. -/
def isModulator (a n : Nat) : Bool :=
  match strapAUsed a with
  | 0 => true
  | 1 => decide (n ≤ 2)
  | 2 => decide (n ≤ 1)
  | 3 => decide (n = 0)
  | 10 => decide (n ≤ 1)
  | 11 => decide (n ≤ 1)
  | 15 => decide (n ≤ 1)
  | _ => false

/-- Table 6-4: the channel is carried by the digital output. -/
def isDigital (a n : Nat) : Bool :=
  let l := strapAUsed a
  if 4 ≤ l ∧ l ≤ 9 then true else if l = 10 ∨ l = 11 then decide (2 ≤ n) else false

/-- The channel is assigned by STRAP_A (R610). -/
def channelUsed (a n : Nat) : Bool := isModulator a n || isDigital a n

/-- Table 2-7, priority 2: the digital output takes GP `pin`. -/
def digitalTakes (a pin : Nat) : Bool :=
  let l := strapAUsed a
  let on := decide (4 ≤ l) && decide (l ≤ 11)
  on && (pin == 0 || pin == 1 || pin == 2 || pin == 4 || (pin == 3 && decide (l ≤ 7)))

/-- Priorities 1 to 3 of Table 2-7: the pin is taken by one of them. -/
def fixedTakes (c : Memory) (e : Engine) (pin : Nat) : Bool :=
  (e.mode == .bench && pin == 15) || digitalTakes e.straps.a pin ||
    (pin == 4 && slotB (sysSlot c e.image 0x00C) && (List.range 4).any (isModulator e.straps.a))

/-- PIN of an entry. -/
def gpPin (c : Memory) (im : Image) (i : Nat) : Nat := (gpSlot c im i 1).toNat

/-- R68, R69: entry `i` takes its pin. -/
def gpTakes (c : Memory) (e : Engine) (i : Nat) : Bool :=
  let k := gpKind c e.image i
  let p := gpPin c e.image i
  let rival (j : Nat) : Bool :=
    let kj := gpKind c e.image j
    kj != 0 && gpPin c e.image j == p &&
      ((k == 1 && kj == 1 && decide (j < i)) || (k != 1 && (kj == 1 || decide (j < i))))
  k != 0 && decide (p ≤ 15) && !fixedTakes c e p && !(List.range 16).any fun j => j != i && rival j

/-- An entry that has not taken its pin. -/
def GpEntry.clear : GpEntry := ⟨false, false, false, false, 0, 0, 0, 0, false, 0, false⟩

/-- Entry `i`. -/
def Engine.gpAt (e : Engine) (i : Nat) : GpEntry := nth .clear e.gp i

/-- Entry `i` mapped. -/
def Engine.gpMap (i : Nat) (f : GpEntry → GpEntry) (e : Engine) : Engine := { e with gp := updAt f i e.gp }

/-- R70: an entry has failed to take its pin. -/
def gpConflict (c : Memory) (e : Engine) : Bool :=
  (List.range 16).any fun i => gpKind c e.image i != 0 && !(e.gpAt i).taken

/-- R63 to R65 at strobe F. -/
def gpTakeover (c : Memory) (e : Engine) : Engine :=
  let take (i : Nat) : GpEntry :=
    if gpTakes c e i then
      { GpEntry.clear with
        taken := true
        fresh := true
        level := if gpKind c e.image i = 2 then slotBits 7 0 (gpSlot c e.image i 5) else 0 }
    else .clear
  { e with gp := (List.range 16).map take }

/-- The entry is an input entry that has taken its pin. -/
def gpInput (c : Memory) (e : Engine) (i : Nat) : Bool := (e.gpAt i).taken && gpKind c e.image i == 1

/-! ## Sampling and debounce (R73, R704, R705) -/

/-- The level at which an input entry is active. -/
def gpActiveLevel (c : Memory) (im : Image) (i : Nat) : Bool := slotBits 2 2 (gpConfig c im i) == 1

/-- The entry's debounced state is the active one. -/
def gpActive (c : Memory) (e : Engine) (i : Nat) : Bool := (e.gpAt i).state == gpActiveLevel c e.image i

/-- One sample of entry `i`. -/
def gpSample (c : Memory) (pins : BitVec 16) (e : Engine) (i : Nat) : Engine :=
  if gpInput c e i then
    let v := pins.getLsbD (gpPin c e.image i)
    let tdb := gpDebounce c e i
    e.gpMap i fun g =>
      if g.fresh then { g with sample := v, state := v, fresh := false, run := 0 }
      else
        let diff := v != g.state
        { g with
          sample := v
          run := if diff then g.run + 1 else 0
          need := if diff ∧ g.run = 0 then tdb else g.need
          hold := g.hold + 1 }
  else e

/-- R704: the debounce run of entry `i` is complete. -/
def gpDue (c : Memory) (e : Engine) (i : Nat) : Bool :=
  let g := e.gpAt i
  gpInput c e i && decide (gpRole c e.image i ≠ 2) && decide (0 < g.run) && decide (g.need ≤ g.run)

/-- DEBOUNCE_CHANGE: the debounced state of entry `i` changes (R704 to R706). -/
def debounceChangeOp (c : Memory) (i : Nat) (e : Engine) : Engine :=
  if gpDue c e i then
    let on := !gpActive c e i
    let cls := gpClass c e.image i
    let w := gpSlot c e.image i 4
    let first := msTicks e.kettle.fam (timesFirst (cls == 2) w)
    let g := e.gpAt i
    let e := e.gpMap i fun g =>
      { g with state := !g.state, run := 0, hold := 0, due := if on ∧ cls ≠ 0 then first else 0, longDone := false }
    if gpRole c e.image i = 1 then (if on then e.emit (.gp i 0) else e)
    else if on then (if cls = 2 then e else e.emit (.gp i 0))
    else if cls = 2 then (if g.longDone then e else e.emit (.gp i 4)).emit (.gp i 2)
    else e.emit (.gp i 2)
  else e

/-- SWITCH_REPEAT (R705, R719). -/
def switchRepeatOp (c : Memory) (i : Nat) (e : Engine) : Engine :=
  let g := e.gpAt i
  if gpInput c e i ∧ gpRole c e.image i = 0 ∧ gpClass c e.image i = 1 ∧ gpActive c e i ∧ 0 < g.due ∧ g.due ≤ g.hold ∧ ¬ gpDue c e i then
    (e.gpMap i fun g => { g with hold := g.hold - g.due, due := msTicks e.kettle.fam (timesRepeat (gpSlot c e.image i 4)) }).emit (.gp i 1)
  else e

/-- SWITCH_LONG (R705, R718). -/
def switchLongOp (c : Memory) (i : Nat) (e : Engine) : Engine :=
  let g := e.gpAt i
  if gpInput c e i ∧ gpRole c e.image i = 0 ∧ gpClass c e.image i = 2 ∧ gpActive c e i ∧ 0 < g.due ∧ g.due ≤ g.hold ∧ g.longDone = false then
    (e.gpMap i fun g => { g with longDone := true }).emit (.gp i 3)
  else e

/-! ## Outputs (R709 to R714) -/

/-- Lon of an entry. -/
def gpOn (c : Memory) (im : Image) (i : Nat) : Nat := max 1 (slotBits 15 8 (gpSlot c im i 5))

/-- Table 16-5. -/
def PinAct.apply (on : Nat) : PinAct → Nat → Nat
  | .set, _ => on
  | .clear, _ => 0
  | .toggle, l => if l = 0 then on else 0
  | .level n, _ => n

/-- R709, R711: a pin action stamped now. -/
def pinAction (c : Memory) (i : Nat) (a : PinAct) (e : Engine) : Engine :=
  if i < 16 ∧ (e.gpAt i).taken ∧ gpKind c e.image i = 2 then { e with pinChg := e.pinChg ++ [(e.target, i, a)] } else e

/-- The pin actions that take effect at strobe `n`, in their order (R77). -/
def pinStep (c : Memory) (n : Nat) (e : Engine) : Engine :=
  let due := e.pinChg.filter fun x => decide (x.1 ≤ n)
  let e := { e with pinChg := e.pinChg.filter fun x => decide (n < x.1) }
  due.foldl (fun e x => e.gpMap x.2.1 fun g => { g with level := x.2.2.apply (gpOn c e.image x.2.1) g.level }) e

/-- R714: the VU entries at a strobe that releases a frame with the readings `vup` and `vur`. -/
def vuStep (c : Memory) (vup vur : List W32) (e : Engine) : Engine :=
  (List.range 16).foldl (fun e i =>
    if (e.gpAt i).taken ∧ gpKind c e.image i = 3 then
      let cfg := gpConfig c e.image i
      let rd := nth 0#32 (if slotBits 10 10 cfg = 1 then vur else vup) (slotBits 9 8 cfg)
      let th := slotF (q32 (-60)) 0#32 (gpSlot c e.image i 6)
      let hy := slotF 0#32 (q32 6) (gpSlot c e.image i 7)
      let lit := fLe th rd || ((e.gpAt i).lit && !(f32Val rd).lt ((f32Val th).sub (f32Val hy)))
      e.gpMap i fun g => { g with lit := lit, level := if lit then gpOn c e.image i else 0 }
    else e) e

/-- R712: an output entry with level `l` is active at strobe `s`. -/
def pwmActive (l s : Nat) : Bool := l == 255 || decide (s % 256 < l)

/-- R713: how an output entry drives its pin at strobe `s`. -/
def gpDrive (c : Memory) (e : Engine) (s i : Nat) : PinDrive :=
  let cfg := gpConfig c e.image i
  let low := slotBits 2 2 cfg == 1
  let on := pwmActive (e.gpAt i).level s
  let od := slotBits 3 3 cfg == 1
  if od then (if on == low then .low else .released) else (if on != low then .high else .low)

/-- The divisor of MCLK_OUT alone on GP4 (Table 4-1, R124, R675, R825): slot 0x00D. -/
def mclkDivisor (c : Memory) (im : Image) : Nat := if slotE 1 0 (sysSlot c im 0x00D) = 1 then 250 else 125

/-- Table 6-4: the divisor of MCLK_OUT of the digital output. -/
def digitalMclk (a : Nat) : Nat := if strapAUsed a = 5 ∨ strapAUsed a = 7 ∨ strapAUsed a = 11 then 250 else 125

/-- Table 15-6: the divisor of BCK_OUT. -/
def bckDivisor (a : Nat) : Nat := if strapAUsed a = 8 ∨ strapAUsed a = 9 then 125 else 250

/-- What a pin of the digital output carries while the clocks run (Table 2-7). -/
def digitalDrive (a p : Nat) : PinDrive :=
  if p = 0 then .bck (bckDivisor a) else if p = 1 then .ws else if p = 2 then .sd 0 else if p = 3 then .sd 1 else .mclk (digitalMclk a)

/-- How GP `p` stands while a function of priority 2 or 3 holds it (R62, R63, R82, R148). The digital output
has its pins from t0 on; until B1 has read the strap the model cannot tell whether it is selected (R180, log 74). -/
def fixedDrive (c : Memory) (e : Engine) (p : Nat) : Option PinDrive :=
  if e.mode = .load then none
  else if ¬ e.steep.b1 ∧ p ≤ 4 then some .byStrapA
  else if digitalTakes e.straps.a p then some (if e.out.clocks then digitalDrive e.straps.a p else .low)
  else if e.served ∧ p = 4 ∧ fixedTakes c e 4 then some (if e.out.clocks then .mclk (mclkDivisor c e.image) else .low)
  else none

/-- BIAS of an input entry (R56, R839, Table 20-9). -/
def gpBias (c : Memory) (im : Image) (i : Nat) : Bias :=
  match slotBits 1 0 (gpConfig c im i) with
  | 0 => .none
  | 2 => .down
  | _ => .up

/-- How pin GP `p` stands at strobe `s` (Tables 2-5 to 2-7); FSTB rises with the strobe (R71). -/
def pinDrive (c : Memory) (e : Engine) (s p : Nat) : PinDrive :=
  if e.mode = .load then .input .down
  else if e.mode = .bench ∧ p = 15 then .high
  else
    match fixedDrive c e p with
    | some d => d
    | none =>
      match (List.range 16).find? fun i => (e.gpAt i).taken && gpPin c e.image i == p with
      | none => .input .down
      | some i => if gpKind c e.image i = 1 then .input (gpBias c e.image i) else gpDrive c e s i

/-- The general pins at strobe `s`. -/
def gpPinsStep (c : Memory) (s : Nat) (e : Engine) : Engine :=
  { e with pins := { e.pins with gp := (List.range 16).map (pinDrive c e s) } }

/-- Between strobes the pins of the functions of priority 2 and 3 follow their function at once (R62, R82, R148, R152, R153); the other
pins change only at a strobe (R77) and, for FSTB, at a tick (R71). -/
def gpFixedStep (c : Memory) (e : Engine) : Engine :=
  { e with pins := { e.pins with gp := (List.range 16).map fun p => (fixedDrive c e p).getD (nth (.input .down) e.pins.gp p) } }

/-! ## The other biased pins (R56, Table 2-5) -/

/-- The pins of Table 2-3 that can carry a bias resistor, and the rest. -/
inductive PinName where
  | resetN | rxd | irIn
  | mode (i : Fin 3)
  | testen
  | bckIn | wsIn
  | sdIn (i : Fin 2)
  | strap (i : Fin 4)
  | gp (i : Fin 16)
  | other
deriving DecidableEq, Repr

/-- Table 2-5: the bias resistor that a pin carries now. A pin whose function STRAP_A has still to decide carries that of its reset state
unless the strap selects the digital output (log 74). -/
def pinBias (e : Engine) : PinName → Bias
  | .resetN | .rxd | .irIn | .strap _ => .up
  | .mode _ | .testen | .bckIn | .wsIn | .sdIn _ => .down
  | .gp i => match nth (.input .down) e.pins.gp i.val with
    | .input b => b
    | .byStrapA => .down
    | _ => .none
  | .other => .none

end Sys2Proof.Machine
end

