-- ==== Sys2Proof/Machine/Ir.lean ====
section
/-! DEFINITION. The IR decoder (16.1 to 16.6): filtering, the two kinds of frame, chains, key events and floods. -/

namespace Sys2Proof.Machine

/-- A length in crystal periods lies within `lo` to `hi` microseconds. -/
def irWithin (lo hi len : Nat) : Bool := decide (24576 * lo ≤ 1000 * len) && decide (1000 * len ≤ 24576 * hi)

/-- R687: every level shorter than 60 µs is removed with its two edges. -/
def irFilter : List IrRun → List IrRun → List IrRun
  | acc, [] => acc.reverse
  | [], r :: rs => irFilter [r] rs
  | a :: acc, r :: rs =>
    if a.asserted = r.asserted ∨ 1000 * r.len < 24576 * 60 then irFilter (⟨a.asserted, a.len + r.len⟩ :: acc) rs
    else irFilter (r :: a :: acc) rs

/-- A mark within limits in microseconds. -/
def irMark (lo hi : Nat) (r : IrRun) : Bool := r.asserted && irWithin lo hi r.len

/-- A space within limits in microseconds. -/
def irSpace (lo hi : Nat) (r : IrRun) : Bool := !r.asserted && irWithin lo hi r.len

/-- The bits of a code frame: 32 marks each followed by a bit space, then the stop mark. -/
def pdBits : Nat → List IrRun → Option (List Bool)
  | 0, [stop] => if irMark 300 750 stop then some [] else none
  | n + 1, m :: s :: rs =>
    if irMark 300 750 m then
      if irSpace 300 750 s then (pdBits n rs).map (false :: ·)
      else if irSpace 1200 1850 s then (pdBits n rs).map (true :: ·)
      else none
    else none
  | _, _ => none

/-- A number from bits, most significant first. -/
def bitsNat (bs : List Bool) : Nat := bs.foldl (fun a b => 2 * a + b.toNat) 0

/-- R689, R690: the code of a pulse-distance code frame. -/
def pdCode (runs : List IrRun) : Option IrCode :=
  match irFilter [] runs with
  | l :: s :: rs =>
    if irMark 5000 7000 l && irSpace 2400 3600 s then
      match pdBits 32 rs with
      | some bs =>
        let b := bitsNat bs
        let chk := Nat.xor 0xFF ((b / 2 ^ 24 + b / 2 ^ 16 % 256 + b / 2 ^ 8 % 256) % 256)
        if b % 256 = chk then some ⟨1, b / 2 ^ 16, b / 2 ^ 8 % 256, false⟩ else none
      | none => none
    else none
  | _ => none

/-- R689: the levels form a repeat frame. -/
def pdRepeat (runs : List IrRun) : Bool :=
  match irFilter [] runs with
  | [l, s, m] => irMark 5000 7000 l && irSpace 1200 1800 s && irMark 300 750 m
  | _ => false

/-- The half-bits of the levels of a bi-phase frame (R692). -/
def biHalves : List IrRun → Option (List Bool)
  | [] => some []
  | r :: rs =>
    if irWithin 430 770 r.len then (biHalves rs).map (r.asserted :: ·)
    else if irWithin 960 1440 r.len then (biHalves rs).map fun l => r.asserted :: r.asserted :: l
    else none

/-- Pairs of half-bits as bits: mark and space is 1, space and mark is 0. -/
def biBits : List Bool → Option (List Bool)
  | [] => some []
  | a :: b :: l => if a = b then none else (biBits l).map (a :: ·)
  | [_] => none

/-- The last level of a frame is a mark: a space in its place would have been ended by a further edge (R693). -/
def endsInMark (runs : List IrRun) : Bool := (runs.getLast?.map (·.asserted)) == some true

/-- R692 to R694: the code of a bi-phase frame whose first level is the space before it and whose last one ends with the last edge of the
frame. -/
def biCode (runs : List IrRun) : Option IrCode :=
  match irFilter [] runs with
  | g :: rs =>
    if !g.asserted && decide (24576 * 2500 ≤ 1000 * g.len) && ((rs.head?.map (·.asserted)) == some true) && endsInMark rs then
      match biHalves rs with
      | some h =>
        let h := if h.length = 31 then h ++ [false] else h
        if h.length = 32 then
          match biBits h with
          | some bs =>
            let b := bitsNat bs
            if 2 ^ 15 ≤ b then some ⟨2, b / 256 % 64, b % 256, decide (b / 2 ^ 14 % 2 = 1)⟩ else none
          | none => none
        else none
      | none => none
    else none
  | [] => none

/-! ## Key map (R700, R837) -/

/-- Slot `o` of key map entry `i`. -/
def irSlot (c : Memory) (im : Image) (i o : Nat) : W32 := sysSlot c im (0x300 + 4 * i + o)

/-- The key of a code: the lowest entry that matches. -/
def irKey (c : Memory) (im : Image) (k : IrCode) : Option Nat :=
  (List.range 64).find? fun i =>
    let pr := slotBits 1 0 (irSlot c im i 0)
    (pr == 1 || pr == 2) && decide (pr = k.proto) && decide ((irSlot c im i 1).toNat = k.address) &&
      decide ((irSlot c im i 2).toNat = k.command)

/-- CLASS of key map entry `i`: 0 once, 1 repeat, 2 long. -/
def irClass (c : Memory) (im : Image) (i : Nat) : Nat := let k := slotBits 5 4 (irSlot c im i 0); if k = 3 then 0 else k

/-- The decoder runs (R686) and no flood holds it off. -/
def irRuns (e : Engine) : Bool := e.kettle.crystal && decide (e.mode ≠ .load) && !e.ir.flood

/-- The length of levels in tQ. -/
def irLength (runs : List IrRun) : Nat := 16 * (runs.map (·.len)).sum

/-- The levels of a frame apart from the space before it. -/
def irFrame : List IrRun → List IrRun
  | r :: rs => if r.asserted then r :: rs else rs
  | [] => []

/-- R686, R699: the frame with these levels, whose last edge falls at `t`, began while the receivers waited for one. -/
def irFresh (runs : List IrRun) (t : Time) (e : Engine) : Bool :=
  irRuns e && decide (max e.ir.since e.kettle.crystalAt + ((irLength (irFrame runs) : Nat) : Rat) < t + 16)

/-- A key event of entry `i`, once F has come. -/
def irEmit (i bit : Nat) (e : Engine) : Engine := if e.served then e.emit (.irKey i bit) else e

/-- R697, R701: the chain ends. -/
def irEnd (c : Memory) (e : Engine) : Engine :=
  match e.ir.chain with
  | none => e
  | some ch =>
    let e := { e with ir := { e.ir with chain := none } }
    match irKey c e.image ch.code with
    | none => e
    | some i =>
      let e := if irClass c e.image i = 2 ∧ ¬ ch.longRaised then irEmit i 4 e else e
      irEmit i 2 e

/-- R184: the codes held during steep. -/
def irHold (k : IrCode) (t : Nat) (l : List (IrCode × Nat)) : List (IrCode × Nat) :=
  let l := l ++ [(k, t)]
  if 8 < l.length then l.drop 1 else l

/-- R695: a code starts a chain at `t`. -/
def irStart (c : Memory) (k : IrCode) (t : Time) (e : Engine) : Engine :=
  let e := irEnd c e
  let e := { e with ir := { e.ir with chain := some ⟨k, t, t, t, false, false⟩ } }
  if !e.served then { e with steep := { e.steep with irHold := irHold k (periodsAt t) e.steep.irHold } }
  else
    match irKey c e.image k with
    | none => e
    | some i => if irClass c e.image i = 2 then e else irEmit i 0 e

/-- R696, R701: a frame joins the chain at `t`. -/
def irJoin (c : Memory) (t : Time) (ch : IrChain) (e : Engine) : Engine :=
  let ch := { ch with last := t }
  match irKey c e.image ch.code with
  | none => { e with ir := { e.ir with chain := some ch } }
  | some i =>
    let w := irSlot c e.image i 3
    let cls := irClass c e.image i
    if cls = 1 then
      let first := ch.beat == ch.start
      let need := msT (if first then timesFirst false w else timesRepeat w)
      let far := decide (ch.start + msT (timesFirst false w) ≤ t)
      if far && decide (ch.beat + need ≤ t) then
        irEmit i 1 { e with ir := { e.ir with chain := some { ch with beat := t } } }
      else { e with ir := { e.ir with chain := some ch } }
    else if cls = 2 ∧ ¬ ch.longPast ∧ ch.start + msT (timesFirst true w) ≤ t then
      irEmit i 3 { e with ir := { e.ir with chain := some { ch with longPast := true, longRaised := e.served } } }
    else { e with ir := { e.ir with chain := some ch } }

/-- PULSE_DISTANCE_CODE_FRAME. -/
def irCodeFrame (c : Memory) (runs : List IrRun) (t : Nat) (e : Engine) : Engine :=
  match pdCode runs with
  | some k => if irFresh runs (t : Rat) e then irStart c k (t : Rat) e else e
  | none => e

/-- PULSE_DISTANCE_REPEAT_FRAME. -/
def irRepeatFrame (c : Memory) (runs : List IrRun) (t : Nat) (e : Engine) : Engine :=
  match e.ir.chain with
  | some ch =>
    if irFresh runs (t : Rat) e ∧ pdRepeat runs ∧ ch.code.proto = 1 ∧ (t : Rat) ≤ ch.last + msT 150 then irJoin c (t : Rat) ch e else e
  | none => e

/-- BI_PHASE_FRAME: `t` is the last edge plus 2.0 ms (R693). -/
def irBiFrame (c : Memory) (runs : List IrRun) (t : Nat) (e : Engine) : Engine :=
  match biCode runs with
  | none => e
  | some k =>
    if irFresh runs ((t : Rat) - msT 2) e then
      match e.ir.chain with
      | some ch => if ch.code = k ∧ (t : Rat) ≤ ch.last + msT 150 then irJoin c (t : Rat) ch e else irStart c k (t : Rat) e
      | none => irStart c k (t : Rat) e
    else e

/-- CHAIN_TIMEOUT. -/
def irTimeout (c : Memory) (t : Nat) (e : Engine) : Engine :=
  match e.ir.chain with
  | some ch => if ch.last + msT 150 ≤ (t : Rat) then irEnd c e else e
  | none => e

/-- R698: a space of 20 ms, in crystal periods. -/
def irIdle (r : IrRun) : Bool := !r.asserted && decide (491520 ≤ r.len)

/-- R698: the unfiltered levels `runs` up to `t` are an idle interval and the activity run of 120 ms that follows it, or an activity run of
120 ms that began at crystal valid. -/
def floodDue (runs : List IrRun) (t : Nat) (e : Engine) : Bool :=
  let full (l : List IrRun) : Bool := !l.any irIdle && decide ((l.map (·.len)).sum = 2949120)
  (match runs with
    | r :: l => irIdle r && full l && decide (e.kettle.crystalAt + ((irLength l : Nat) : Rat) ≤ (t : Rat))
    | [] => false) ||
  full runs && decide (periodsAt e.kettle.crystalAt + 2949120 = t / 16)

/-- FLOOD (R698, R699). -/
def irFloodOp (c : Memory) (runs : List IrRun) (t : Nat) (e : Engine) : Engine :=
  if irRuns e ∧ floodDue runs t e then
    let e := irEnd c e
    ({ e with ir := { e.ir with flood := true } }).raise 0x34
  else e

/-- FLOOD_END (R699): the input has been idle for 20 ms; `idle` is the space that stands at `t`. -/
def irFloodEnd (idle : IrRun) (t : Nat) (e : Engine) : Engine :=
  if e.ir.flood ∧ irIdle idle then { e with ir := { e.ir with flood := false, since := (t : Rat) } } else e

end Sys2Proof.Machine
end

