-- ==== Sys2Proof/Machine/Dials.lean ====
section
/-! DEFINITION. The dial converter (06): conversion, flags, medians, potentiometers, ladders, the internal channels, the reference
hold and the battery state (20, R827). -/

namespace Sys2Proof.Machine

/-- R214: the code of an input at `vin` microvolts with VREFC at `vref` microvolts. -/
def convCode (vin : Int) (vref : Nat) : Nat := (max 0 (min 0xFFF ((4096 * vin).fdiv vref))).toNat

/-- R232: the input exceeds VREFC by more than VOVR (Table 6-9; between the table's limits this device's own figure decides). -/
def convOvr (vin : Int) (vref : Nat) : Bool :=
  if vin ≤ vref + 10000 then false
  else if (vref : Int) + 45000 < vin then true
  else decide ((vref : Int) + Config.vovrMicro < vin)

/-- R232: the input lies below VSS by more than VUNR. -/
def convUnr (vin : Int) : Bool :=
  if -10000 ≤ vin then false
  else if vin < -45000 then true
  else decide (vin < -(Config.vunrMicro : Int))

/-- The number of values below or equal position in ascending order: insertion sort. -/
def sortNat : List Nat → List Nat
  | [] => []
  | a :: l => let r := sortNat l; r.takeWhile (fun x => decide (x < a)) ++ a :: r.dropWhile (fun x => decide (x < a))

/-- The middle value of a list of five. -/
def median5 (l : List Nat) : Nat := nth 0 (sortNat l) 2

/-- R235: the median of a channel, once five conversions have been entered. -/
def DialChan.median (d : DialChan) : Option Nat := if d.codes.length < 5 then none else some (median5 (d.codes.take 5))

/-- A channel before its first conversion. -/
def DialChan.clear : DialChan := ⟨[], false, false, false, false, false, false, 0⟩

/-- Channel `i` of the scan. -/
def Dials.chan (d : Dials) (i : Nat) : DialChan := nth .clear d.chans i

/-- The median of channel `i`. -/
def Dials.median (d : Dials) (i : Nat) : Option Nat := (d.chan i).median

/-- Table 20-5: slot `o` of dial `i`. -/
def dialSlot (c : Memory) (im : Image) (i o : Nat) : W32 := sysSlot c im (0x040 + 0x10 * i + o)

/-- The kind of dial `i` (0 unused, 1 potentiometer, 2 ladder; R238 for a potentiometer whose lo is not below its hi). -/
def dialKind (c : Memory) (im : Image) (i : Nat) : Nat :=
  let k := slotE 2 0 (dialSlot c im i 0)
  if k = 1 ∧ slotU 0 4095 (dialSlot c im i 2) ≤ slotU 0 4095 (dialSlot c im i 1) then 0 else k

/-- R239: U(m). -/
def dialU (c : Memory) (im : Image) (i m : Nat) : Nat :=
  let lo := slotU 0 4095 (dialSlot c im i 1)
  let hi := slotU 0 4095 (dialSlot c im i 2)
  (max 0 (min 65535 ((65535 * ((m : Int) - lo)).fdiv ((hi : Int) - lo)))).toNat

/-- A dial event: Prep takes `m` (R240). -/
def dialEvent (c : Memory) (i m : Nat) (e : Engine) : Engine :=
  ({ e with dials := { e.dials with prep := e.dials.prep.set i (some m) } }).emit (.dial i (dialU c e.image i m))

/-- R240: a potentiometer event is due at median `m`. -/
def dialDue (c : Memory) (i m : Nat) (e : Engine) : Bool :=
  match (nth none e.dials.prep i) with
  | none => true
  | some p =>
    let d := slotU 1 255 (dialSlot c e.image i 3)
    let u := dialU c e.image i m
    decide (d ≤ ((m : Int) - p).natAbs) || ((u == 0 || u == 65535) && u != dialU c e.image i p)

/-- R240 for dial `i` after a new median. -/
def potAtMedian (c : Memory) (i : Nat) (e : Engine) : Engine :=
  match e.dials.median i with
  | some m => if e.served ∧ ¬ e.dials.hold ∧ dialKind c e.image i = 1 ∧ dialDue c i m e then dialEvent c i m e else e
  | none => e

/-- R241: the key whose window contains `code`. -/
def ladderVote (c : Memory) (im : Image) (i code : Nat) : Option Nat :=
  (List.range 8).find? fun k =>
    let w := dialSlot c im i (8 + k)
    decide (slotBits 11 0 w ≤ code) && decide (code ≤ slotBits 23 12 w)

/-- R242: one vote. -/
def ladderStep (dn : Nat) (v : Option Nat) (l : Ladder) : Ladder :=
  let run := if v = l.cand then l.run + 1 else 1
  if dn ≤ run then { l with key := v, cand := v, run := run } else { l with cand := v, run := run }

/-- A ladder before its first vote: the debounced state is "none" (R242). -/
def Ladder.clear : Ladder := ⟨none, none, 0, none⟩

/-- R243: the events between the last reported state and the debounced one. -/
def ladderReport (i : Nat) (e : Engine) : Engine :=
  let l := nth .clear e.dials.ladders i
  if l.key = l.reported then e
  else
    let e := match l.reported with
      | some a => e.emit (.ladder i a true)
      | none => e
    let e := match l.key with
      | some b => e.emit (.ladder i b false)
      | none => e
    { e with dials := { e.dials with ladders := e.dials.ladders.set i { l with reported := l.key } } }

/-- R241 to R243 for an entered conversion of ladder dial `i`. R187 leaves open whether a run that a conversion ending exactly at F
completes is part of the initial state; the model raises its events after F (log 78). Before the end of B3 no dial map is in force, and R241
does not say whether the conversions entered until then vote once it is; the model lets none of them vote (log 103). -/
def ladderAtCode (c : Memory) (i code : Nat) (e : Engine) : Engine :=
  if dialKind c e.image i ≠ 2 then e
  else
    let dn := slotU 1 15 (dialSlot c e.image i 6)
    let l := ladderStep dn (ladderVote c e.image i code) (nth .clear e.dials.ladders i)
    let e := { e with dials := { e.dials with ladders := e.dials.ladders.set i l } }
    if e.served ∧ ¬ e.dials.hold then ladderReport i e else e

/-- R244: VBAT in mV from the medians of VBAT_SENSE and REF_BG; a median of REF_BG of 0 leaves the quotient without a value (log 104). -/
def vbatOf (v g : Nat) : Nat := if g = 0 then Config.vbatNoRef v else 1200 * v / g

/-- R245, R786: Tj in quarters of a degree from the medians of TEMP and REF_BG (log 104). -/
def tjOf (a b : W32) (t g : Nat) : Int :=
  if g = 0 then Config.tjNoRef t else (4 * (f32Rat a + f32Rat b * (t : Rat) / (g : Rat)) + 1 / 2).floor

/-- R244 and R786: VBAT and Tj from the medians, while no reference hold is in force. -/
def senseUpdate (e : Engine) : Engine :=
  if e.dials.hold then e
  else
    let d := e.dials
    let vbat := match d.median 12, d.median 14 with
      | some v, some g => some (vbatOf v g)
      | _, _ => d.vbat
    let tj := match d.median 13, d.median 14 with
      | some t, some g => some (tjOf e.image.cal.tjA e.image.cal.tjB t g)
      | _, _ => d.tj
    -- a reading is in force from the frame of its stamp on (R27, R40, log 72)
    { e with dials := { d with vbat := vbat, tj := tj }, tjChg := if tj = d.tj then e.tjChg else e.tjChg ++ [(e.target, tj)] }

/-- R827: the battery state that follows `s` at battery value `bv`. R827 lets a threshold of 0 never apply and does not say where a state
other than OK ends then; the model lets CRIT with BAT_LOW at 0 end in OK (log 95). -/
def batteryNext (low crit hyst s bv : Nat) : Nat :=
  if bv < crit then 2
  else if s = 0 then (if bv < low then 1 else 0)
  else if s = 1 then (if low + hyst ≤ bv then 0 else 1)
  else if crit + hyst ≤ bv then (if low + hyst ≤ bv then 0 else 1)
  else 2

/-- R827: the battery state from the VBAT in force. -/
def batteryFrom (c : Memory) (e : Engine) : Nat :=
  match e.dials.vbat with
  | none => e.dials.battery
  | some v =>
    let r := slotF (q32 1) (q32 20) (sysSlot c e.image 0x018)
    let bv := (f32Rat r * (v : Rat)).floor.toNat
    batteryNext (slotU 0 20000 (sysSlot c e.image 0x019)) (slotU 0 20000 (sysSlot c e.image 0x01A))
      (slotU 0 1000 (sysSlot c e.image 0x01B)) e.dials.battery bv

/-- R827, R828: the battery state at a new median of VBAT_SENSE after F. -/
def batteryStep (c : Memory) (e : Engine) : Engine :=
  if e.dials.hold ∨ ¬ e.served then e
  else
    let s := batteryFrom c e
    if s = e.dials.battery then e else ({ e with dials := { e.dials with battery := s } }).emit (.battery s)

/-- R247: the end of a reference hold: every potentiometer and ladder in ascending dial number. R244 gives VBAT and Tj from the medians
wherever no hold keeps them; the model forms them anew at the strobe at which the hold ends, whichever median ended it (log 79). -/
def holdEnd (c : Memory) (e : Engine) : Engine :=
  let e := senseUpdate { e with dials := { e.dials with hold := false, badBg := 0, badGnd := 0 } }
  (List.range 12).foldl (fun e i =>
    if dialKind c e.image i = 1 then potAtMedian c i e
    else if dialKind c e.image i = 2 ∧ e.served then ladderReport i e else e) e

/-- R246, R247: the limits of REF_BG (`bg`) or REF_GND at a new median. R247 does not say whether a run of five that one channel has
completed lasts when a later median of it is bad; the model counts the runs that stand at the end, so both must stand at once (log 80). -/
def refLimits (c : Memory) (bg : Bool) (m : Nat) (e : Engine) : Engine :=
  let d := e.dials
  let good := if bg then decide (2560 ≤ m) && decide (m ≤ 2920) else decide (m ≤ 16)
  if d.hold then
    let gb := if bg then (if good then d.goodBg + 1 else 0) else d.goodBg
    let gg := if bg then d.goodGnd else (if good then d.goodGnd + 1 else 0)
    let e := { e with dials := { d with goodBg := gb, goodGnd := gg } }
    if 5 ≤ gb ∧ 5 ≤ gg then holdEnd c e else e
  else
    let bb := if bg then (if good then 0 else d.badBg + 1) else d.badBg
    let bn := if bg then d.badGnd else (if good then 0 else d.badGnd + 1)
    let e := { e with dials := { d with badBg := bb, badGnd := bn } }
    if 3 ≤ bb ∨ 3 ≤ bn then
      ({ e with dials := { e.dials with hold := true, goodBg := 0, goodGnd := 0 } }).raise 0x37
    else e

/-- What follows a new median of channel `i`. -/
def atMedian (c : Memory) (i : Nat) (e : Engine) : Engine :=
  if i < 12 then potAtMedian c i e
  else if i = 12 then batteryStep c (senseUpdate e)
  else if i = 13 then senseUpdate e
  else
    match e.dials.median i with
    | some m => let e := refLimits c (i == 14) m e; if i = 14 then senseUpdate e else e
    | none => e

/-- R232 to R236: the channel after one conversion, its flags given; a flagged or suspect conversion is not entered. -/
def DialChan.convert (d : DialChan) (code : Nat) (ovr unr suspect : Bool) : DialChan :=
  let fl := ovr || unr
  let clean := if fl then 0 else d.clean + 1
  { codes := if fl || suspect then d.codes else (code :: d.codes).take 5
    flagged := fl
    prevFlagged := d.flagged
    ovr := ovr
    unr := unr
    seen := true
    episode := if fl then true else (d.episode && decide (clean < 5))
    clean := clean }

/-- The slot of Table 6-7 whose conversion completes at strobe `n` (R229, R230). -/
def slotAt (n : Nat) : Option Nat :=
  if n = 0 ∨ n % 4 ≠ 0 then none
  else
    let s := (n / 4 + 23) % 24
    if s < 16 then some s else none

/-- R229 to R247: the conversion of the slot that ends at the last strobe. -/
def convert (c : Memory) (vin : Int) (vref : Nat) (e : Engine) : Engine :=
  match (if e.strobe.started ∧ e.dials.done ≠ some e.strobe.n then slotAt e.strobe.n else none) with
  | none => e
  | some i =>
    let internal := decide (13 ≤ i)
    let ovr := !internal && convOvr vin vref
    let unr := !internal && convUnr vin
    let code := if ovr then 0xFFF else if unr then 0 else convCode vin vref
    let pred := e.dials.chan (i - 1)
    let suspect := decide (0 < i) && (pred.flagged || pred.prevFlagged)
    let old := e.dials.chan i
    let new := old.convert code ovr unr suspect
    let e := { e with dials := { e.dials with chans := e.dials.chans.set i new, done := some e.strobe.n } }
    let e := e.raiseIf (new.episode && !old.episode) 0x36
    let e := if ovr || unr || suspect then e
      else
        let e := if i < 12 then ladderAtCode c i code e else e
        if new.codes.length < 5 then e else atMedian c i e
    -- R186, R256: a dial whose conversion ends at F reports its position with that conversion
    if i < 12 ∧ e.steep.f = some e.strobe.n ∧ (nth none e.dials.prep i) = none then potAtMedian c i e else e

/-- R186, R187, R828: what the dials do at F. A dial whose conversion ends at this very strobe reports with it (R256). No rule
orders the position events of several dials at F; the model takes ascending dial number, the dial whose conversion ends at F last (log 81). -/
def dialsAtF (c : Memory) (e : Engine) : Engine :=
  let e := { e with dials := { e.dials with ladders := e.dials.ladders.map fun l => { l with reported := l.key } } }
  (List.range 12).foldl (fun e i => if slotAt e.strobe.n = some i then e else potAtMedian c i e) e

/-- R828: the battery state at F; a state other than OK is an event. In a reference hold the state does not change, so it stays as it is
(log 95). -/
def batteryAtF (c : Memory) (e : Engine) : Engine :=
  if e.dials.hold then e
  else
    let s := batteryFrom c e
    let e := { e with dials := { e.dials with battery := s } }
    if s = 0 then e else e.emit (.battery s)

end Sys2Proof.Machine
end

