-- ==== Sys2Proof/Machine/LoadService.lean ====
section
/-! DEFINITION. The bank-loading service (17.5 to 17.10): sessions, sections, row writes with their verify, commits, and
the acknowledgement of each load frame. -/

namespace Sys2Proof.Machine

/-- One row write: its first byte and its 64 bytes. -/
abbrev RowWrite := Nat × List Byte

/-- Bytes padded with 0x00 to whole rows of 64 (R746), each row with its address. -/
def rowsOf : Nat → Nat → List Byte → List RowWrite
  | 0, _, _ => []
  | n + 1, a, bs =>
    if bs.isEmpty then []
    else
      let r := bs.take 64
      (a, r ++ List.replicate (64 - r.length) 0#8) :: rowsOf n (a + 64) (bs.drop 64)

/-- The rows that hold `bs` from address `a`. -/
def asRows (a : Nat) (bs : List Byte) : List RowWrite := rowsOf (bs.length / 64 + 1) a bs

/-- A row whose write failed twice holds undetermined bytes (R724, R726): free values. -/
def failedRow (free : Nat) : List Byte := (List.range 64).map fun i => Config.failedByte (64 * free + i)

/-- R724: rows written in order; row number `fail` of the list fails its verify twice and ends the writing. -/
def writeRows (fail : Option Nat) (free : Nat) : List RowWrite → Memory → Memory × Bool
  | [], c => (c, true)
  | (a, bs) :: r, c =>
    match fail with
    | some 0 => (caddyWrite c a (failedRow free), false)
    | some (k + 1) => writeRows (some k) free r (caddyWrite c a bs)
    | none => writeRows none free r (caddyWrite c a bs)

/-- A header of 60 bytes with its HCRC (Tables 17-4 and 17-6). -/
def withHcrc (h : List Byte) : List Byte :=
  let h := h ++ List.replicate (60 - h.length) 0#8
  h ++ leBytes 4 (crc32c h).toNat

/-- A directory entry as bytes (Table 17-5). -/
def entryBytes (e : DirEntry) : List Byte :=
  leBytes 2 e.id ++ leBytes 2 0 ++ leBytes 2 e.start ++ leBytes 2 e.nsec ++ leBytes 4 e.length ++ leBytes 4 e.scrc.toNat

/-- Entries in ascending ID (R730). -/
def sortEntries (es : List DirEntry) : List DirEntry :=
  es.foldr (fun e acc => acc.takeWhile (fun x => decide (x.id < e.id)) ++ e :: acc.dropWhile (fun x => decide (x.id < e.id))) []

/-- The bytes of a directory copy (Tables 17-4 and 17-5). -/
def directoryBytes (gen : Nat) (tag : W32) (es : List DirEntry) : List Byte :=
  let body := (sortEntries es).flatMap entryBytes
  withHcrc (leBytes 4 0x52494443 ++ leBytes 4 gen ++ leBytes 2 es.length ++ leBytes 2 0 ++ leBytes 4 tag.toNat ++
    leBytes 4 (crc32c body).toNat) ++ body

/-- An empty marker (Table 17-4). -/
def markerBytes (gen : Nat) : List Byte :=
  withHcrc (leBytes 4 0x59544D45 ++ leBytes 4 gen ++ leBytes 2 0 ++ leBytes 2 0 ++ leBytes 4 0 ++ leBytes 4 (crc32c []).toNat)

/-- A calibration copy as bytes (Table 17-6). -/
def calBytes (seq : Nat) (bs : List Byte) : List Byte :=
  withHcrc (leBytes 4 0x4C414343 ++ leBytes 4 seq ++ leBytes 4 bs.length ++ leBytes 4 (crc32c bs).toNat) ++ bs

/-- R737: the rows of a calibration write, the copy not in force first. -/
def calRows (c : Memory) (bs : List Byte) : List RowWrite :=
  let first := match calInForce c with
    | some 0 => 1
    | some _ => 0
    | none => 0
  let body := calBytes (calSeq c + 1) bs
  asRows (calBase first) body ++ asRows (calBase (1 - first)) body

/-- The directory copy that is not in force; copy A when none is (R749, R753). -/
def spareCopy (c : Memory) : Nat :=
  match directoryInForce c with
  | some d => 1 - d.copy
  | none => 0

/-- The results of Table 17-10. -/
def rOk : Byte := 0x00#8
/-- Byte count, LEN or FCRC wrong. -/
def rFrame : Byte := 0x01#8
/-- Sequence number out of order. -/
def rSeq : Byte := 0x02#8
/-- Command not allowed in the present state. -/
def rState : Byte := 0x03#8
/-- A parameter is wrong. -/
def rParam : Byte := 0x04#8
/-- No place for the section. -/
def rNoSpace : Byte := 0x05#8
/-- The section read back does not match. -/
def rCheck : Byte := 0x06#8
/-- Endurance limit reached. -/
def rWorn : Byte := 0x07#8
/-- A row write failed. -/
def rWrite : Byte := 0x08#8

/-- The outcome of one load command: result, INFO data, caddy, engine. -/
structure LoadOut where
  result : Byte
  data : List Byte
  caddy : Memory
  eng : Engine

/-- A command that answers and changes nothing. -/
def LoadOut.only (r : Byte) (c : Memory) (e : Engine) : LoadOut := ⟨r, [], c, e⟩

/-- The engine with the session and the open section given. -/
def Engine.withSession (e : Engine) (s : Option Session) (o : Option OpenSection) : Engine :=
  { e with load := { e.load with session := s, sect := o } }

/-- R758: after a row write failed. -/
def loadFailed (c : Memory) (e : Engine) : LoadOut :=
  ⟨rWrite, [], c, { (e.withSession none none) with free := e.free + 1 }.raise 0x13⟩

/-- R734, R737: the endurance limit is reached. -/
def loadWorn (c : Memory) (e : Engine) : LoadOut := ⟨rWorn, [], c, e.raise 0x12⟩

/-- The sectors `a` to `a + n - 1` do not meet those of entry `d`. -/
def clearOf (a n : Nat) (d : DirEntry) : Bool := decide (a + n ≤ d.start) || decide (d.start + d.nsec ≤ a)

/-- The entries of the directory in force. -/
def entriesInForce (c : Memory) : List DirEntry := ((directoryInForce c).map (·.entries)).getD []

/-- R748: the lowest run of `n` free sectors at or above `a`, tried `fuel` times. -/
def freeRun (es : List DirEntry) (n : Nat) : Nat → Nat → Option Nat
  | 0, _ => none
  | fuel + 1, a =>
    if 1024 < a + n then none
    else if es.all (clearOf a n) then some a
    else freeRun es n fuel (a + 1)

/-- Table 17-11. -/
def infoData (c : Memory) (e : Engine) : List Byte :=
  let d := directoryInForce c
  let held (k : Nat) : Bool :=
    (entriesInForce c).any (fun x => decide (x.start ≤ k) && decide (k < x.start + x.nsec)) ||
    (match e.load.session with
      | some s => s.full && s.entries.any (fun x => decide (x.start ≤ k) && decide (k < x.start + x.nsec))
      | none => false) ||
    (match e.load.sect with
      | some o => decide (o.id ≠ 0x0300) && decide (o.start ≤ k) && decide (k < o.start + sectorsOf o.length)
      | none => false)
  let free := ((List.range 1020).filter fun i => !(held (i + 4))).length
  leBytes 4 (generation c) ++
    [BitVec.ofNat 8 ((d.map (·.copy)).getD 0xFF), BitVec.ofNat 8 ((calInForce c).getD 0xFF)] ++ leBytes 2 free ++
    leBytes 4 (((calInForce c).bind fun k => (readCal c k).map (·.1)).getD 0) ++ leBytes 4 ((d.map (·.tag.toNat)).getD 0)

/-- INFO (R745). -/
def loadInfoOp (c : Memory) (e : Engine) : LoadOut := ⟨rOk, infoData c e, c, e⟩

/-- OPEN (R747, R753, R762). -/
def loadOpenOp (mode : Byte) (tag : W32) (fail : Option Nat) (c : Memory) (e : Engine) : LoadOut :=
  if e.load.session.isSome then .only rState c e
  else if mode = 0#8 then
    if (directoryInForce c).isNone then .only rState c e
    else ⟨rOk, [], c, e.withSession (some ⟨false, tag, [], 4, none⟩) none⟩
  else if mode = 1#8 then
    if 250000 ≤ generation c then loadWorn c e
    else
      let k := spareCopy c
      let m := markerBytes (generation c + 1)
      match writeRows fail e.free (asRows (dirBase k) m ++ asRows (dirBase (1 - k)) m) c with
      | (c', true) => ⟨rOk, [], c', e.withSession (some ⟨true, tag, [], 4, none⟩) none⟩
      | (c', false) => loadFailed c' e
  else .only rParam c e

/-- SECTION (R748, R754, R728). -/
def loadSectionOp (id length : Nat) (scrc : W32) (c : Memory) (e : Engine) : LoadOut :=
  match e.load.session, e.load.sect with
  | some s, none =>
    let cal := decide (id = 0x0300)
    if !(cal || contentId id) ∨ length = 0 ∨ (if cal then 4032 else 4177920) < length then .only rParam c e
    else if s.full ∧ (s.entries.any (fun x => decide (x.id = id)) ∨ (cal = true ∧ s.cal.isSome)) then .only rParam c e
    else
      let n := sectorsOf length
      let opened (a : Nat) : LoadOut := ⟨rOk, [], c, e.withSession (some s) (some ⟨id, length, scrc, a, 0, []⟩)⟩
      if cal then opened 0
      else if s.full then (if 1024 < s.next + n then .only rNoSpace c e else opened s.next)
      else match freeRun (entriesInForce c) n 1024 4 with
        | some a => opened a
        | none => .only rNoSpace c e
  | _, _ => .only rState c e

/-- DATA (R746). -/
def loadDataOp (offset : Nat) (bs : List Byte) (fail : Option Nat) (c : Memory) (e : Engine) : LoadOut :=
  match e.load.session, e.load.sect with
  | some s, some o =>
    let n := bs.length
    if n = 0 ∨ 1024 < n ∨ offset ≠ o.got ∨ o.length < offset + n ∨ ¬ (n % 64 = 0 ∨ offset + n = o.length) then .only rParam c e
    else if o.id = 0x0300 then
      ⟨rOk, [], c, e.withSession (some s) (some { o with got := o.got + n, held := o.held ++ bs })⟩
    else
      match writeRows fail e.free (asRows (sectorByte o.start + offset) bs) c with
      | (c', true) => ⟨rOk, [], c', e.withSession (some s) (some { o with got := o.got + n })⟩
      | (c', false) => loadFailed c' e
  | _, _ => .only rState c e

/-- The entry of a sealed section. -/
def OpenSection.entry (o : OpenSection) : DirEntry := ⟨o.id, o.start, sectorsOf o.length, o.length, o.scrc⟩

/-- SEAL of the calibration section (R750, R755). -/
def sealCal (s : Session) (o : OpenSection) (fail : Option Nat) (c : Memory) (e : Engine) : LoadOut :=
  if crc32c o.held ≠ o.scrc then ⟨rCheck, [], c, e.withSession (some s) none⟩
  else if s.full then ⟨rOk, [], c, e.withSession (some { s with cal := some o.held }) none⟩
  else if 500000 < calSeq c + 1 then loadWorn c e
  else
    match writeRows fail e.free (calRows c o.held) c with
    | (c', true) => ⟨rOk, [], c', e.withSession (some s) none⟩
    | (c', false) => loadFailed c' e

/-- SEAL of a content section (R749, R755). -/
def sealContent (s : Session) (o : OpenSection) (fail : Option Nat) (c : Memory) (e : Engine) : LoadOut :=
  if ¬ s.full ∧ 250000 ≤ generation c then loadWorn c e
  else if crc32c (caddyRange c (sectorByte o.start) o.length) ≠ o.scrc then ⟨rCheck, [], c, e.withSession (some s) none⟩
  else if s.full then
    ⟨rOk, [], c, e.withSession (some { s with entries := s.entries ++ [o.entry], next := o.start + sectorsOf o.length }) none⟩
  else
    let es := (entriesInForce c).filter (fun x => decide (x.id ≠ o.id)) ++ [o.entry]
    match writeRows fail e.free (asRows (dirBase (spareCopy c)) (directoryBytes (generation c + 1) s.tag es)) c with
    | (c', true) => ⟨rOk, [], c', e.withSession (some s) none⟩
    | (c', false) => loadFailed c' e

/-- SEAL. -/
def loadSealOp (fail : Option Nat) (c : Memory) (e : Engine) : LoadOut :=
  match e.load.session, e.load.sect with
  | some s, some o =>
    if o.got ≠ o.length then .only rState c e
    else if o.id = 0x0300 then sealCal s o fail c e
    else sealContent s o fail c e
  | _, _ => .only rState c e

/-- CLOSE (R752, R756). -/
def loadCloseOp (fail : Option Nat) (c : Memory) (e : Engine) : LoadOut :=
  match e.load.session, e.load.sect with
  | some s, none =>
    if !s.full then ⟨rOk, [], c, e.withSession none none⟩
    else if 250000 ≤ generation c then loadWorn c e
    else if s.cal.isSome ∧ 500000 < calSeq c + 1 then loadWorn c e
    else
      let cal := match s.cal with
        | some bs => calRows c bs
        | none => []
      let d := directoryBytes (generation c + 1) s.tag s.entries
      match writeRows fail e.free (cal ++ asRows (dirBase 0) d ++ asRows (dirBase 1) d) c with
      | (c', true) => ⟨rOk, [], c', e.withSession none none⟩
      | (c', false) => loadFailed c' e
  | _, _ => .only rState c e

/-- ABORT (R752, R756, R767). -/
def loadAbortOp (c : Memory) (e : Engine) : LoadOut := ⟨rOk, [], c, e.withSession none none⟩

/-- Table 17-8: the bytes of an acknowledgement. -/
def ackBytes (cmd seq result : Byte) (data : List Byte) : List Byte :=
  let body := [cmd, seq, result, BitVec.ofNat 8 data.length] ++ data
  [0xC3#8] ++ body ++ [crc8 body]

/-- The acknowledgement `a` becomes due: the processing of its frame ends now. -/
def Engine.ackWith (e : Engine) (a : List Byte) : Engine := { e with load := { e.load with ackDue := some a, ackFrom := e.now } }

/-- R742, R743: a load frame with a sound check word, whose first start edge falls at `start`, is answered: a repeat, the next one, or one out of
order. A frame that arrives before service has begun, or that begins before the last acknowledgement has gone, is discarded. -/
def loadFrame (cmd seq : Byte) (start : Time) (op : Memory → Engine → LoadOut) (c : Memory) (e : Engine) : Memory × Engine :=
  if e.mode ≠ .load ∨ ¬ e.load.begun ∨ e.load.ackDue.isSome ∨ start < e.load.ackStop then (c, e)
  else
    let run : Memory × Engine :=
      let o := op c e
      let a := ackBytes cmd seq o.result o.data
      (o.caddy, ({ o.eng with load := { o.eng.load with recorded := some (seq, cmd, a) } }).ackWith a)
    match e.load.recorded with
    | none => run
    | some (s, k, a) =>
      if s = seq ∧ k = cmd then (c, e.ackWith a)
      else if seq = s + 1#8 then run
      else (c, e.ackWith (ackBytes cmd seq rSeq []))

/-- Table 17-9 by CMD and payload. A payload of the wrong length receives PARAM (log 17). -/
def loadOp (cmd : Byte) (p : List Byte) (fail : Option Nat) : Memory → Engine → LoadOut :=
  let n := p.length
  let w (o : Nat) : Nat := leNat ((p.drop o).take 4)
  if cmd = 0x01#8 ∧ n = 0 then loadInfoOp
  else if cmd = 0x10#8 ∧ n = 5 then loadOpenOp (nth 0#8 p 0) (BitVec.ofNat 32 (w 1)) fail
  else if cmd = 0x11#8 ∧ n = 10 then loadSectionOp (leNat (p.take 2)) (w 2) (BitVec.ofNat 32 (w 6))
  else if cmd = 0x12#8 ∧ 4 < n then loadDataOp (w 0) (p.drop 4) fail
  else if cmd = 0x13#8 ∧ n = 0 then loadSealOp fail
  else if cmd = 0x14#8 ∧ n = 0 then loadCloseOp fail
  else if cmd = 0x15#8 ∧ n = 0 then loadAbortOp
  else LoadOut.only rParam

/-- R741: the bytes between two idle lines as a load frame whose first start edge falls at `start`. -/
def loadBytes (bs : List Byte) (start : Time) (c : Memory) (e : Engine) : Memory × Engine :=
  if bs.isEmpty ∨ e.mode ≠ .load ∨ ¬ e.load.begun ∨ e.load.ackDue.isSome ∨ start < e.load.ackStop then (c, e)
  else if nth 0#8 bs 0 ≠ 0x5A#8 ∨ bs.length < 3 then
    (c, { e with link := { e.link with partialCount := sat16 (e.link.partialCount + 1) } })
  else
    let cmd := nth 0#8 bs 1
    let seq := nth 0#8 bs 2
    let len := leNat ((bs.drop 3).take 2)
    if bs.length ≠ 9 + len ∨ 1028 < len ∨ (crc32c ((bs.drop 1).take (4 + len))).toNat ≠ leNat (bs.drop (5 + len)) then
      (c, e.ackWith (ackBytes cmd seq rFrame []))
    else loadFrame cmd seq start (loadOp cmd ((bs.drop 5).take len) none) c e

/-- An acknowledgement is due at the last strobe: the processing of its frame had ended by then (R744). -/
def Engine.ackReady (e : Engine) : Bool := e.load.ackDue.isSome && decide (e.load.ackFrom ≤ e.strobe.last)

/-- R744: the acknowledgement starts at the last strobe, when TXD is idle. -/
def sendAck (e : Engine) : Engine :=
  match e.load.ackDue with
  | some a =>
    if e.txIdle ∧ e.ackReady then
      let e' := e.startTx a
      { e' with load := { e'.load with ackDue := none, ackStop := e'.link.txUntil - e.link.tr.getD 0 } }
    else e
  | none => e

end Sys2Proof.Machine
end

