-- ==== Sys2Proof/Machine/Link.lean ====
section
/-! DEFINITION. The event port below the messages (07, §5.4): rate modes, the sync character, characters, the parser, the holding
queue of steep, and the bytes of the status frames' envelope. -/

namespace Sys2Proof.Machine

/-- Table 6-5 with R227 and R254: the level of STRAP_B that is used. -/
def strapBUsed (b : Nat) : Nat := if 8 ≤ b ∧ b ≤ 14 then 15 else b

/-- Table 6-5: the rate mode is autobaud. -/
def autobaud (s : Straps) : Bool := decide (4 ≤ strapBUsed s.b)

/-- Table 6-5: the default bank. -/
def defaultBank (s : Straps) : Nat := let b := strapBUsed s.b; if b = 15 then 0 else b % 4

/-- R265: 32.000 µs. -/
def trFixed : Time := 12582912 / 1000

/-- R180: the receiver is armed for the first time; in the autobaud mode it enters sync state (R267). -/
def armReceiver (e : Engine) : Engine :=
  if e.steep.b1 ∧ ¬ e.link.armed then
    { e with link := { e.link with armed := true, sync := autobaud e.straps, cand := [], candFrom := e.now } }
  else e

/-- R259: the edges of RXD that its pulse filter passes on: both edges of a pulse shorter than 15 ns go. R259 leaves it open whether a pulse
of 15 ns to 30 ns is ignored; the model acts on it (log 107). -/
def deglitch : List Nat → List Nat
  | a :: b :: r => if a ≤ b ∧ 1000000000 * (b - a) < 15 * 393216000 then deglitch r else a :: deglitch (b :: r)
  | l => l

/-- Table 7-2: the conditions of a sync candidate, its ten edges in tQ (a falling edge first), inclusive at tQ (R268). -/
def syncOk (edges : List Nat) (stopHigh : Bool) : Bool :=
  let ed (i : Nat) : Nat := nth 0 edges i
  let l1 := ed 1 - ed 0
  let span : Rat := ((ed 8 - ed 0 : Nat) : Rat) / 8
  edges.length == 10 && stopHigh &&
    decide ((250 : Rat) * 393216 / 1000000 ≤ (l1 : Rat)) && decide ((l1 : Rat) ≤ (1343 : Rat) * 393216 / 10000) &&
    (List.range 8).all (fun i =>
      let r := ed (i + 2) - ed (i + 1)
      decide (ed (i + 1) ≤ ed (i + 2)) && decide (3 * l1 ≤ 4 * r) && decide (4 * r ≤ 5 * l1)) &&
    decide ((3233 : Rat) * 393216 / 10000000 ≤ span) && decide (span ≤ (1074 : Rat) * 393216 / 10000)

/-- R268: by `t` a condition of Table 7-2 on the runs or on Tb can no longer hold for the open candidate with the edges `l`, each condition
taken by itself (log 88). -/
def candFails (l : List Nat) (t : Nat) : Bool :=
  let ed (i : Nat) : Nat := nth 0 l i
  let k := l.length
  let l1 := ed 1 - ed 0
  let long (d : Nat) : Bool := decide ((1343 : Rat) * 393216 / 10000 < (d : Rat))
  (if k ≤ 1 then long (t - ed 0) else long l1 || decide ((l1 : Rat) < (250 : Rat) * 393216 / 1000000)) ||
  ((List.range 8).any fun i =>
    let r := ed (i + 2) - ed (i + 1)
    if i + 2 < k then decide (4 * r < 3 * l1) || decide (5 * l1 < 4 * r)
    else decide (i + 2 = k) && decide (5 * l1 < 4 * (t - ed (i + 1)))) ||
  (if 8 < k then
      let span : Rat := ((ed 8 - ed 0 : Nat) : Rat) / 8
      decide (span < (3233 : Rat) * 393216 / 10000000) || decide ((1074 : Rat) * 393216 / 10000 < span)
    else decide (8 * ((1074 : Rat) * 393216 / 10000) < ((t - ed 0 : Nat) : Rat)))

/-- The bit time that nine edges give (Table 7-2). -/
def candTb (l : List Nat) : Time := ((nth 0 l 8 - nth 0 l 0 : Nat) : Rat) / 8

/-- R269: the stop sample of a candidate. -/
def candStop (l : List Nat) : Time := (nth 0 l 0 : Nat) + 19 / 2 * candTb l

/-- R268: the open candidate is rejected at `t`: by an instant at which a condition fails, or by a low stop sample, which nine edges place. -/
def candDead (l : List Nat) (t : Nat) : Bool :=
  candFails l t || (decide (9 ≤ l.length) && decide (l.length % 2 = 1) && decide (candStop l < (t : Rat) + 1))

/-- R267, R268: one more edge of RXD in sync state, falling or rising: the edges of the open candidate and the number of rejections. -/
def candEdge (a : List Nat × Nat) (x : Nat × Bool) : List Nat × Nat :=
  let a := if a.1 ≠ [] ∧ candDead a.1 (x.1 - 1) then ([], a.2 + 1) else a
  if a.1 = [] then (if x.2 then ([x.1], a.2) else a)
  else if (a.1.getLast?.getD 0) < x.1 then
    (if candFails (a.1 ++ [x.1]) x.1 then (if x.2 then [x.1] else [], a.2 + 1) else (a.1 ++ [x.1], a.2))
  else a

/-- Edges of RXD in sync state, a falling edge first. -/
def candRun (from_ : Time) (cand : List Nat) (edges : List Nat) : List Nat × Nat :=
  let xs : List (Nat × Bool) := edges.zipIdx.map fun p => (p.1, decide (p.2 % 2 = 0))
  (xs.filter fun x => decide (from_ ≤ (x.1 : Rat))).foldl candEdge (cand, 0)

/-- R271: `n` candidates are rejected; the fault comes with the first since t0 or since the last accepted one. -/
def rejected (n : Nat) (e : Engine) : Engine :=
  if n = 0 then e
  else
    let raised := e.link.syncRaised
    ({ e with link := { e.link with syncFail := sat16 (e.link.syncFail + n), syncRaised := true } }).raiseIf (!raised) 0x32

/-- The edges belong to the candidate that is open, or open one. -/
def candOwn (edges : List Nat) (e : Engine) : Bool :=
  (e.link.cand == [] || (e.link.cand.length == 1 && e.link.cand.head? == edges.head?)) &&
    decide (e.link.candFrom ≤ ((nth 0 edges 0 : Nat) : Rat))

/-- R269: an accepted candidate gives Tr and begins a burst at its stop sample. -/
def takeSync (edges : List Nat) (e : Engine) : Engine :=
  { e with link := { e.link with tr := some (candTb edges), sync := false, syncRaised := false, ref := some (candStop edges), cand := [] } }

/-- SYNC_CHARACTER: the edges of a candidate with the level at its stop sample. Edges that break a condition of Table 7-2 reject the candidates
they belong to (R268, R271). -/
def acceptSync (edges : List Nat) (stopHigh : Bool) (e : Engine) : Engine :=
  let edges := deglitch edges
  if ¬ e.link.armed ∨ ¬ e.link.sync then e
  else if syncOk edges stopHigh ∧ candOwn edges e then takeSync edges (e.at (candStop edges).floor.toNat)
  else
    let a := candRun e.link.candFrom e.link.cand edges
    let e := e.at (edges.getLast?.getD 0)
    if 10 ≤ a.1.length then
      if stopHigh then takeSync a.1 (rejected a.2 e) else rejected (a.2 + 1) { e with link := { e.link with cand := [] } }
    else rejected a.2 { e with link := { e.link with cand := a.1 } }

/-- SYNC_CANDIDATE_REJECTED: the edges of RXD up to `t`, a falling edge first. -/
def rejectSync (edges : List Nat) (t : Nat) (e : Engine) : Engine :=
  if e.link.armed ∧ e.link.sync then
    let a := candRun e.link.candFrom e.link.cand ((deglitch edges).filter fun x => decide (x ≤ t))
    if a.1 ≠ [] ∧ candDead a.1 t then rejected (a.2 + 1) { e with link := { e.link with cand := [], candFrom := (t : Rat) } }
    else rejected a.2 { e with link := { e.link with cand := a.1 } }
  else e

/-! ## The parser (R274 to R278, R289) -/

/-- The data bytes of a message by its status byte (Tables 7-4 and 7-7). -/
def dataCount (st : Byte) : Nat :=
  let n := st.toNat
  if n < 0xC0 then 2
  else if n < 0xE0 then 1
  else if n < 0xF0 then 2
  else if n = 0xF1 ∨ n = 0xF3 then 1
  else if n = 0xF2 then 2
  else 0

/-- One byte: the parser after it, the message it completes (a channel message with its status byte, or a real-time byte), and
whether it ended an incomplete message. -/
def Parser.step (p : Parser) (b : Byte) : Parser × Option (List Byte) × Bool :=
  let n := b.toNat
  if 0xF8 ≤ n then (p, some [b], false)
  else if 0xF0 ≤ n then
    (⟨none, if dataCount b = 0 then none else some b, [], n == 0xF0⟩, none, p.status.isSome)
  else if 0x80 ≤ n then (⟨some b, some b, [], false⟩, none, p.status.isSome)
  else if p.sysex then (p, none, false)
  else
    match (match p.status with | some s => some s | none => p.running) with
    | none => (p, none, false)
    | some st =>
      let d := p.data ++ [b]
      if d.length < dataCount st then ({ p with status := some st, data := d }, none, false)
      else ({ p with status := none, data := [] }, if st.toNat < 0xF0 then some (st :: d) else none, false)

/-- The parser before any byte. -/
def Parser.clear : Parser := ⟨none, none, [], false⟩

/-- The parser discards what is in progress (R273, R303). -/
def Parser.drop (p : Parser) : Parser := { p with status := none, data := [], sysex := false }

/-! ## The holding queue of steep (R181 to R183) -/

/-- Bytes held. -/
def heldBytes (l : List Held) : Nat := (l.map fun h => h.bytes.length).sum

/-- A held note-on; velocity 0 counts as a note-off. -/
def Held.isNoteOn (h : Held) : Bool :=
  match h.bytes with
  | [s, _, v] => decide (s.toNat / 16 = 9) && decide (v ≠ 0#8)
  | _ => false

/-- The list without its first note-on. -/
def dropNoteOn : List Held → List Held
  | [] => []
  | h :: r => if h.isNoteOn then r else h :: dropNoteOn r

/-- R183 for a message that is not a note-on: note-ons leave, oldest first, until it fits. -/
def makeRoom (need : Nat) : Nat → List Held → List Held
  | 0, l => l
  | fuel + 1, l =>
    if heldBytes l + need ≤ 512 then l
    else if l.any Held.isNoteOn then makeRoom need fuel (dropNoteOn l)
    else l

/-- R181 to R183: a complete message is held. -/
def holdMessage (h : Held) (e : Engine) : Engine :=
  match h.bytes with
  | [b] =>
    if 0xFA ≤ b.toNat ∧ b.toNat ≤ 0xFC then { e with steep := { e.steep with heldRt := some h } } else e
  | bs =>
    let q := e.steep.held
    if heldBytes q + bs.length ≤ 512 then { e with steep := { e.steep with held := q ++ [h] } }
    else
      let q' := if h.isNoteOn then q else makeRoom bs.length 512 q
      let q'' := if heldBytes q' + bs.length ≤ 512 then q' ++ [h] else q'
      let lost := (q.length - q'.length) + (if heldBytes q' + bs.length ≤ 512 then 0 else 1)
      let first := !e.steep.heldOver
      ({ e with
        steep := { e.steep with held := q'', heldOver := true }
        link := { e.link with overrun := sat16 (e.link.overrun + lost) } }).raiseIf first 0x30

/-! ## Characters -/

/-- The byte of ten samples S0 to S9 (R263). -/
def charByte (s : BitVec 10) : Byte := s.extractLsb' 1 8

/-- The receiver is armed for a start edge at `t` (R260, R263, R290). -/
def armedAt (t : Time) (e : Engine) : Bool :=
  e.link.armed && !e.link.sync && e.link.tr.isSome &&
    (match e.link.ref with | some r => decide (r ≤ t) | none => true)

/-- S9 of a character with start edge `t` (R260). -/
def stopSample (t : Nat) (e : Engine) : Time := (t : Rat) + 19 / 2 * e.link.tr.getD 0

/-- R260, R263: a character with start edge `t` whose S0 is low and S9 high can be received now. -/
def charDue (s : BitVec 10) (t : Nat) (e : Engine) : Bool := armedAt (t : Rat) e && !(s.getLsbD 0) && s.getLsbD 9

/-- The reference instant of the idle line after a character with start edge `t` (R272), and the byte kept in Load mode (R740). -/
def tookChar (b : Byte) (t : Nat) (e : Engine) : Engine :=
  let tr := e.link.tr.getD 0
  let rx := if e.mode = .load then e.link.rx ++ [b] else e.link.rx
  let st := match e.link.rxStart with
    | some x => some x
    | none => if e.mode = .load then some (t : Rat) else none
  { e with link := { e.link with ref := some ((t : Rat) + 19 / 2 * tr), rx := rx, rxStart := st } }

/-- R290: a character with start edge `t` whose S9 reads low; RXD rises at `rise`. -/
def framingErr (t rise : Nat) (e : Engine) : Engine :=
  if armedAt (t : Rat) e then
    let full := stopSample t e
    ({ e with
      now := max e.now full
      link := { e.link with
        parser := { Parser.clear with running := none }
        framing := sat16 (e.link.framing + 1)
        ref := some (max full (rise : Rat)) } }).raise 0x31
  else e

/-- R272: the idle line can be declared at `t`. -/
def idleDue (t : Nat) (e : Engine) : Bool :=
  match e.link.ref, e.link.tr with
  | some r, some tr => !e.link.sync && decide (r + 10 * tr ≤ (t : Rat) + 16)
  | _, _ => false

/-- R273, R303: the idle line, apart from the load frame it ends. -/
def idleLineOp (e : Engine) : Engine :=
  let p := e.link.parser
  let busy := p.status.isSome || p.sysex
  { e with link := { e.link with
      ref := none
      sync := autobaud e.straps
      cand := []
      candFrom := e.now
      parser := p.drop
      rx := []
      rxStart := none
      partialCount := if busy then sat16 (e.link.partialCount + 1) else e.link.partialCount } }

end Sys2Proof.Machine
end

