-- ==== Sys2Proof/Machine/RealFn.lean ====
section
/-! DEFINITION. The real functions that the spec writes inside ⟨…⟩ (R462): powers, logarithms, sine, cosine, tangent,
exponential, square root and the Bessel function of the Kaiser window. They are computed on a fixed-point grid of
2^-192, far below any binary32 rounding boundary met (log 10, DEDUCED), and rounded once under R368. -/

namespace Sys2Proof.Machine

/-- Fraction bits of the working grid. -/
def fxBits : Nat := 192

/-- The grid value 1. -/
def fxOne : Int := 2 ^ fxBits

/-- Product on the grid. -/
def fxMul (a b : Int) : Int := (a * b) >>> fxBits

/-- Quotient on the grid. -/
def fxDiv (a b : Int) : Int := (a * 2 ^ fxBits).fdiv b

/-- The rational `n / d` on the grid. -/
def fxRat (n : Int) (d : Nat) : Int := (n * 2 ^ fxBits).fdiv d

/-- A rational on the grid. -/
def fxOfRat (q : Rat) : Int := fxRat q.num q.den

/-- ⟨v⟩ for a grid value. -/
def fxRound (v : Int) : W32 := roundF ⟨v, -192⟩

/-- The exact value of a binary32 word on the grid (exact for every exponent above -168). -/
def fxOfF32 (w : W32) : Int := (f32Val w).floorMul2 192

/-- Σ of a series whose term `k + 1` is `step (k + 1) (term k)`. -/
def fxSeries (step : Nat → Int → Int) : Nat → Nat → Int → Int → Int
  | 0, _, _, acc => acc
  | n + 1, k, t, acc => let t' := step (k + 1) t; fxSeries step n (k + 1) t' (acc + t')

/-- exp of a small grid value by its Taylor series. -/
def fxExpSmall (x : Int) : Int := fxSeries (fun k t => (fxMul t x).fdiv k) 60 0 fxOne fxOne

/-- The terms of 2 atanh(r). -/
def fxAtanhLoop (r2 : Int) : Nat → Nat → Int → Int → Int
  | 0, _, _, acc => acc
  | n + 1, k, p, acc => let p' := fxMul p r2; fxAtanhLoop r2 n (k + 2) p' (acc + p'.fdiv (k + 2))

/-- 2 atanh(r) for a grid value `r` with `|r| ≤ 1/3`. -/
def fxTwoAtanh (r : Int) : Int := 2 * fxAtanhLoop (fxMul r r) 70 1 r r

/-- ln 2. -/
def fxLn2 : Int := fxTwoAtanh (fxRat 1 3)

/-- ln 10 = 3 ln 2 + ln(5/4). -/
def fxLn10 : Int := 3 * fxLn2 + fxTwoAtanh (fxRat 1 9)

/-- exp of a grid value: the power of two is split off first. -/
def fxExp (x : Int) : Int :=
  let k := x.fdiv fxLn2
  let y := fxExpSmall (x - k * fxLn2)
  if 0 ≤ k then y * 2 ^ k.toNat else y >>> (-k).toNat

/-- 2^q for a rational q. -/
def fxExp2 (q : Rat) : Int :=
  let k := q.floor
  let y := fxExpSmall (fxMul (fxOfRat (q - k)) fxLn2)
  if 0 ≤ k then y * 2 ^ k.toNat else y >>> (-k).toNat

/-- 10^x for a grid value x. -/
def fxExp10 (x : Int) : Int := fxExp (fxMul x fxLn10)

/-- ln of a positive rational. -/
def fxLn (q : Rat) : Int :=
  let k := ratLog2 q.num.natAbs q.den
  let m : Rat := if 0 ≤ k then q / ((2 ^ k.toNat : Nat) : Rat) else q * ((2 ^ (-k).toNat : Nat) : Rat)
  k * fxLn2 + fxTwoAtanh (fxOfRat ((m - 1) / (m + 1)))

/-- log2 of a positive rational. -/
def fxLog2 (q : Rat) : Int := fxDiv (fxLn q) fxLn2

/-- π by Machin's formula: 16 atan(1/5) - 4 atan(1/239). -/
def fxAtanInv (n : Nat) : Int :=
  let rec go : Nat → Nat → Int → Int → Int
    | 0, _, _, acc => acc
    | f + 1, k, p, acc =>
      let p' := -(p.fdiv (n * n : Nat))
      go f (k + 2) p' (acc + p'.fdiv (k + 2))
  let p := fxOne.fdiv n
  go 90 1 p p

/-- π. -/
def fxPi : Int := 16 * fxAtanInv 5 - 4 * fxAtanInv 239

/-- sin of a grid angle from 0 to π/4. -/
def fxSinSmall (x : Int) : Int :=
  let x2 := fxMul x x
  fxSeries (fun k t => -((fxMul t x2).fdiv ((2 * k) * (2 * k + 1) : Nat))) 40 0 x x

/-- cos of a grid angle from 0 to π/4. -/
def fxCosSmall (x : Int) : Int :=
  let x2 := fxMul x x
  fxSeries (fun k t => -((fxMul t x2).fdiv ((2 * k - 1) * (2 * k) : Nat))) 40 0 fxOne fxOne

/-- sin(2π q) for a rational number of turns. -/
def fxSinTurn (q : Rat) : Int :=
  let r := q - q.floor
  let (neg, r) := if r < 1 / 2 then (false, r) else (true, r - 1 / 2)
  let r := if r ≤ 1 / 4 then r else 1 / 2 - r
  let v := if r ≤ 1 / 8 then fxSinSmall (fxMul (2 * fxPi) (fxOfRat r))
    else fxCosSmall (fxMul (2 * fxPi) (fxOfRat (1 / 4 - r)))
  if neg then -v else v

/-- cos(2π q). -/
def fxCosTurn (q : Rat) : Int := fxSinTurn (q + 1 / 4)

/-- tan(π q) for 0 ≤ q < 1/2. -/
def fxTanHalf (q : Rat) : Int := fxDiv (fxSinTurn (q / 2)) (fxCosTurn (q / 2))

/-- √ of a nonnegative grid value. -/
def fxSqrt (x : Int) : Int := (Nat.sqrt (x.toNat * 2 ^ fxBits) : Nat)

/-- I0(√z), the modified Bessel function of order 0 at the root of a grid value z. -/
def fxBesselI0 (z : Int) : Int :=
  let q := z >>> 2
  fxSeries (fun k t => (fxMul t q).fdiv (k * k : Nat)) 80 0 fxOne fxOne

/-- The Kaiser window w(t, M, β) of §13.2, with `t`, `β` rational and `M` a natural number. -/
def fxKaiser (t : Rat) (M : Nat) (β : Rat) : Int :=
  let u := (t - M) / M
  fxDiv (fxBesselI0 (fxOfRat (β * β * (1 - u * u)))) (fxBesselI0 (fxOfRat (β * β)))

/-- sinc(x) = sin(πx) / (πx) (§13.2). -/
def fxSinc (x : Rat) : Int :=
  if x = 0 then fxOne else fxDiv (fxSinTurn (x / 2)) (fxMul fxPi (fxOfRat x))

/-! ## ROM tables (Table 11-2) and the coefficient sets of chapter 13 -/

/-- T2(i) = ⟨2^(i/1024)⟩. -/
def romT2 (i : Nat) : W32 := fxRound (fxExp2 ((i : Rat) / 1024))

/-- SN(i) = ⟨sin(2π i / 4096)⟩. -/
def romSN (i : Nat) : W32 := fxRound (fxSinTurn ((i : Rat) / 4096))

/-- TN(i) = ⟨tan(π i / 4096)⟩. -/
def romTN (i : Nat) : W32 := fxRound (fxTanHalf ((i : Rat) / 4096))

/-- R465: interpolated lookup of a table at phase `p` with `k` index bits. -/
def look (X : Nat → W32) (p : W32) (k : Nat) : W32 :=
  let i := phsIndex p k
  let g := phsFrac p k
  let a := X i
  line [.val a, .mac g (X (i + 1)), .msu g a]

/-- R466: E2(x). -/
def fE2 (x : W32) : W32 :=
  let v := f32Val x
  let u := v.sub (Dy.ofInt v.floor)
  fScale (look romT2 (ftpDy u) 10) x

/-- R467: L2(x) for x > 0. -/
def fL2 (x : W32) : W32 :=
  let e := fExp x
  let y := fSub (fNorm x) one32
  let a1 := ofRat (1437192 / 1000000)
  let a2 := ofRat (-6711149 / 10000000)
  let a3 := ofRat (3123979 / 10000000)
  let a4 := ofRat (-7847534 / 100000000)
  let h := line [.val a3, .mac y a4]
  let h := line [.val a2, .mac y h]
  let h := line [.val a1, .mac y h]
  line [.val e, .mac y h]

/-- C20 of R483: ⟨log₂(10) / 20⟩. -/
def c20 : W32 := fxRound ((fxDiv fxLn10 fxLn2).fdiv 20)

/-- A level in dB as a gain: E2(x × C20). -/
def dbGain (x : W32) : W32 := fE2 (fMul x c20)

/-- R571: HB2 coefficient n. -/
def h2Coef (n : Nat) : W32 :=
  if n % 2 = 1 ∧ n ≠ 31 then 0
  else fxRound ((fxMul (fxSinc (((n : Rat) - 31) / 2)) (fxKaiser n 31 (96 / 10))) >>> 1)

/-- R579: prototype entry j. -/
def protoH (j : Nat) : W32 :=
  if j % 256 = 0 ∧ j ≠ 8192 then 0
  else fxRound (fxMul (fxSinc ((j : Rat) / 256 - 32)) (fxKaiser ((j : Rat) / 256) 32 (93 / 10)))

/-- R591: DEC8 coefficient n. -/
def h8Coef (n : Nat) : W32 :=
  fxRound (fxMul (fxOfRat (1025 / 10000))
    (fxMul (fxSinc ((1025 / 10000 : Rat) * ((n : Rat) - 80))) (fxKaiser n 80 (565 / 100))))

end Sys2Proof.Machine
end

