-- ==== Sys2Proof/Machine/Mix.lean ====
section
/-! DEFINITION. Ramps, the volume law, and the settings of the mix that actions change: volume, mute, source, profile, wet levels and duck
enables (14.5, 14.8, 20.8). -/

namespace Sys2Proof.Machine

/-- The value of a ramp in frame `f`. -/
def Ramp.at (r : Ramp) (f : Nat) : Rat :=
  if f < r.start then r.v0
  else if r.n ≤ f - r.start + 1 then r.v1
  else r.v0 + (r.v1 - r.v0) * ((f - r.start + 1 : Nat) : Rat) / (r.n : Rat)

/-- The value of a slide in frame `f`. -/
def Slide.at (s : Slide) (f : Nat) : Rat :=
  if f < s.start then s.v0
  else
    let d : Rat := ((f - s.start + 1 : Nat) : Rat) / (s.n : Rat)
    if s.v1 < s.v0 then max s.v1 (s.v0 - d) else min s.v1 (s.v0 + d)

/-- A slide that stands still. -/
def Slide.still (v : Rat) : Slide := ⟨v, v, 0, 1⟩

/-- A slide from its value in frame `f - 1` towards `v` from frame `f` on. -/
def Slide.turn (s : Slide) (v : Rat) (f n : Nat) : Slide := ⟨s.at (f - 1), v, f, n⟩

/-- R621: the master gain of a volume index in dB, with -96 dB in place of silence (R622). -/
def volDb (i : Nat) : Rat :=
  if i = 0 then -96 else if 105 ≤ i then ((i : Rat) - 255) / 5 else -30 + ((i : Rat) - 105) / 2

/-- R621, R622: the linear gain of a level in dB; -96 dB stands for silence. -/
def dbLinear (g : Rat) : W32 := if g ≤ -96 then 0#32 else dbGain (ofRat g)

/-- Rm (14.1). -/
def rmFrames (f : Fam) : Nat := framesMs f 10

/-- V of R622. -/
def vFrames (f : Fam) : Nat := framesMs f 20

/-- M of R194. -/
def mFrames (f : Fam) : Nat := framesMs f 300

/-- R175: Gp in dB. -/
def gpDb (e : Engine) : Rat := min (-20) (volDb e.steep.index0)

/-- A change of the mix settings, for the target frame and every later one. -/
def Engine.setMix (m : MixRec) (e : Engine) : Engine := { e with mix := m, mixChg := e.mixChg ++ [(e.target, m)] }

/-- Table 3-6: T01 of an index and a mute. -/
def wordT01 (m : MixRec) : W16 := BitVec.ofNat 16 (m.index + if m.muted then 32768 else 0)

/-- Table 3-6, R114: T03 of a profile that the listener chose. -/
def wordT03 (e : Engine) (p : Nat) : W16 := BitVec.ofNat 16 (p + 256 * e.straps.d + 32768)

/-- R622, R196: the volume ramp of a change to index `i`. -/
def volumeRamp (i : Nat) (e : Engine) : Ramp :=
  let f := e.target
  let m := e.mix
  match e.steep.restore, e.steep.xAt with
  | true, some x =>
    let stop' := x + mFrames e.steep.xFam
    if f < stop' then ⟨if f ≤ x then gpDb e else m.vol.at (f - 1), volDb i, max f x + 1, stop' - max f x⟩
    else ⟨m.vol.at (f - 1), volDb i, f, vFrames e.kettle.fam⟩
  | true, none => { m.vol with v1 := volDb i }
  | _, _ => ⟨m.vol.at (f - 1), volDb i, f, vFrames e.kettle.fam⟩

/-- R843, R623: the volume index becomes `i`; an index above the one in force lifts a mute. -/
def setVolume (i : Nat) (e : Engine) : Engine :=
  let m := e.mix
  let lift := decide (m.index < i) && m.muted
  let m' := { m with
    index := i
    vol := if i = m.index then m.vol else volumeRamp i e
    muted := m.muted && !lift
    gM := if lift then m.gM.turn 1 e.target (rmFrames e.kettle.fam) else m.gM }
  let e := e.setMix m'
  e.writeWord 1 (wordT01 m')

/-- R623: the mute is set on or off. -/
def setMute (on : Bool) (e : Engine) : Engine :=
  let m := e.mix
  if m.muted = on then e
  else
    let m' := { m with muted := on, gM := m.gM.turn (if on then 0 else 1) e.target (rmFrames e.kettle.fam) }
    (e.setMix m').writeWord 1 (wordT01 m')

/-- R624: the source becomes `s` (0 program and voices, 1 program only, 2 voices only). -/
def setSource (s : Nat) (e : Engine) : Engine :=
  let m := e.mix
  if m.source = s then e
  else
    let f := e.target
    let n := rmFrames e.kettle.fam
    let p : Rat := if s = 2 then 0 else 1
    let v : Rat := if s = 1 then 0 else 1
    let m' := { m with
      source := s
      gsP := if m.gsP.v1 = p then m.gsP else m.gsP.turn p f n
      gsV := if m.gsV.v1 = v then m.gsV else m.gsV.turn v f n }
    (e.setMix m').writeWord 2 (BitVec.ofNat 16 s)

/-- The number of frames a gain of value `v` takes to fall to 0 in steps of `1 / n`. -/
def fallFrames (v : Rat) (n : Nat) : Nat := (v * (n : Rat)).ceil.toNat

/-- R631: a profile change to `p`; the gain gP and the change itself follow frame by frame (`profileFrame`). -/
def setProfile (p : Nat) (e : Engine) : Engine :=
  if e.mix.profile = p then e else (e.setMix { e.mix with profile := p }).writeWord 3 (wordT03 e p)

/-- R631, R636 for frame `f`. `goal` is the latest profile that has taken effect by then. The second value says that a new profile comes
into force in this frame. A change stamped up to Z - 4 has its target frame at Z + 1 or before it and comes into force at Z + 1. The meadow
may begin frame Z + 1 with strobe Z - 3 (R22), before an event stamped Z - 3 to Z - 1 completes; whenever the meadow begins it, such a
change comes into force in its target frame (R27, R360), without a fall (log 36). -/
def profileFrame (f goal n : Nat) (p : ProfileRun) : ProfileRun × Bool :=
  let p := match p.z with
    | some z => if z + 4 < f then { p with z := none } else p
    | none => p
  match p.z with
  | some z =>
    if f ≤ z then (p, false)
    else if p.gP.v1 = 0 then ({ p with now := goal, gP := ⟨0, 1, f, n⟩ }, true)
    else ({ p with now := goal }, goal != p.now)
  | none =>
    if goal = p.now then (p, false)
    else
      let z := f + fallFrames (p.gP.at (f - 1)) n - 1
      let p := { p with gP := p.gP.turn 0 f n, z := some z }
      if f ≤ z then (p, false) else ({ p with now := goal, gP := ⟨0, 1, f, n⟩ }, true)

/-! ## A change of family (R637, R638) -/

/-- R638: a slide that runs goes on from its value in frame `f - 1` with the step of the new family. -/
def Slide.reform (f n : Nat) (s : Slide) : Slide := s.turn s.v1 f n

/-- R638: a volume ramp that runs reaches its target in the frame that R622 gives for the new V, on a straight line from its value in frame
`f - 1` (log 35). -/
def Ramp.reform (f n : Nat) (r : Ramp) : Ramp := ⟨r.at (f - 1), r.v1, f, r.start + n - f⟩

/-- The ramp of the volume is one of R622: the restore ramp of R194 counts M. -/
def stampedRamp (s : Steep) (r : Ramp) : Bool :=
  match s.restore, s.xAt with
  | true, some x => decide (x + mFrames s.xFam ≤ r.start)
  | true, none => false
  | false, _ => true

/-- A later slide, formed from `old` when `old` has become `new`. -/
def Slide.follow (n : Nat) (old new s : Slide) : Slide := if s = old then new else new.turn s.v1 s.start n

/-- The settings `m`, formed from `old` when `old` has become `new`. -/
def MixRec.follow (s : Steep) (rm v : Nat) (old new m : MixRec) : MixRec :=
  { m with
    vol := if m.vol = old.vol then new.vol else if stampedRamp s m.vol then ⟨new.vol.at (m.vol.start - 1), m.vol.v1, m.vol.start, v⟩ else m.vol
    gM := Slide.follow rm old.gM new.gM m.gM
    gsP := Slide.follow rm old.gsP new.gsP m.gsP
    gsV := Slide.follow rm old.gsV new.gsV m.gsV }

/-- The pending settings, each formed from the one before it. -/
def followAll (s : Steep) (rm v : Nat) : MixRec → MixRec → List (Nat × MixRec) → List (Nat × MixRec)
  | _, _, [] => []
  | old, new, x :: r => let m := MixRec.follow s rm v old new x.2; (x.1, m) :: followAll s rm v x.2 m r

/-- R637, R638: gP goes on with the step of the new family, and Z of a fall that runs follows it. -/
def ProfileRun.reform (f n : Nat) (p : ProfileRun) : ProfileRun :=
  { p with
    gP := p.gP.reform f n
    z := if p.gP.v1 = 0 then p.z.map fun _ => f + fallFrames (p.gP.at (f - 1)) n - 1 else p.z }

/-- R638 in frame `f`, the first one computed at a new family: Rm and V of the ramps that run or wait are formed anew. -/
def mixReform (f : Nat) (e : Engine) : Engine :=
  if e.kettle.fam = e.mixFam then e
  else
    let rm := rmFrames e.kettle.fam
    let v := vFrames e.kettle.fam
    let m := e.mixLive
    let m' := { m with
      vol := if stampedRamp e.steep m.vol then m.vol.reform f v else m.vol
      gM := m.gM.reform f rm, gsP := m.gsP.reform f rm, gsV := m.gsV.reform f rm }
    let chg := followAll e.steep rm v m m' e.mixChg
    { e with mixFam := e.kettle.fam, mixLive := m', mixChg := chg, mix := (chg.getLast?.map (·.2)).getD m', prof := e.prof.reform f rm }

/-- Wet level `i` (0 chorus, 1 delay, 2 reverb) becomes `w`. -/
def setWet (i : Nat) (w : W32) (e : Engine) : Engine :=
  e.setMix { e.mix with wet := e.mix.wet.set i (fClamp 0#32 one32 w) }

/-- A duck enable: 0 off, 1 on, 2 toggle. -/
def duckNext (arg : Nat) (b : Bool) : Bool := if arg = 0 then false else if arg = 1 then true else !b

/-- R618: duck A (0) or B (1). -/
def setDuck (which arg : Nat) (e : Engine) : Engine :=
  let m := e.mix
  e.setMix (if which = 0 then { m with duckA := duckNext arg m.duckA } else { m with duckB := duckNext arg m.duckB })

/-! ## Macros (R810, R811) -/

/-- The value of a macro in frame `f` (R811). -/
def Macro.at (m : Macro) (f : Nat) : W32 :=
  if f < m.start then m.v0
  else if m.n ≤ f - m.start then m.v1
  else
    let st := ofRat ((f32Rat m.v1 - f32Rat m.v0) / (m.n : Rat))
    line [.val m.v0, .mac (fItf (f - m.start : Nat)) st]

/-- The envelope drive names macro `k` (from 0) of part `p` (R847). -/
def driven (c : Memory) (e : Engine) (p k : Nat) : Bool :=
  let q := slotU 0 16 (sysSlot c e.image 0x5A8)
  let fl := slotF (q32 (-60)) 0#32 (sysSlot c e.image 0x5AA)
  let ce := slotF (q32 (-60)) 0#32 (sysSlot c e.image 0x5AB)
  decide (q ≠ 0) && fLt fl ce && decide (q = p) && decide (slotU 1 8 (sysSlot c e.image 0x5A9) = k + 1)

/-- A target `v1` for macro `k` (from 0) of part `p`, stamped now (R811, R814). -/
def macroTarget (c : Memory) (p k : Nat) (v1 : W32) (e : Engine) : Engine :=
  if driven c e p k then e
  else
    let r := e.part p
    let m := nth ⟨0, 0, 0, 0⟩ r.macros k
    let tm := slotF 0#32 (q32 10) (patchSlot c r.patch (0x1B3 + 4 * k))
    let n := framesOf e.kettle.fam (f32Rat tm)
    let m' : Macro := ⟨if m.start = e.target then m.v0 else m.at (e.target - 1), v1, e.target, n⟩
    e.setPart p { r with macros := r.macros.set k m' }

/-- INITIAL of macro `k` of a patch. -/
def macroInitial (c : Memory) (patch : Option Nat) (k : Nat) : W32 := slotF 0#32 one32 (patchSlot c patch (0x1B0 + 4 * k))

/-- R810: the macros take INITIAL without a ramp from the target frame on. -/
def macrosInit (c : Memory) (patch : Option Nat) (f : Nat) : List Macro :=
  (List.range 8).map fun k => let v := macroInitial c patch k; ⟨v, v, f, 0⟩

/-- MACRO_STEP adds to the present target. -/
def macroGoal (e : Engine) (p k : Nat) : W32 := (nth ⟨0, 0, 0, 0⟩ (e.part p).macros k).v1

end Sys2Proof.Machine
end

