-- ==== Sys2Proof/Machine/Tempo.lean ====
section
/-! DEFINITION. Tempo counters (12): counters, writes at apply ticks, pulses and grid, held sets and lanes, taps, clocks. -/

namespace Sys2Proof.Machine

/-! ## Counters -/

/-- A stopped counter that counts nothing. -/
def Ctr.clear : Ctr := ⟨0, 0, 0, false, 0, 0, false, none, none, 0, none, false, 0, 0, 0, 0, none⟩

/-- A lane that no part holds, with the seed of R557. -/
def Lane.clear (m : Nat) : Lane := ⟨none, false, none, 0, false, -1, true, 0, none, false, none, none, BitVec.ofNat 16 (0xACE1 + m)⟩

/-- A map of the tempo state. -/
def Engine.onTempo (f : Tempo → Tempo) (e : Engine) : Engine := { e with tempo := f e.tempo }

/-- Counter `k`. -/
def Engine.ctr (e : Engine) (k : Nat) : Ctr := nth .clear e.tempo.ctrs k

/-- Counter `k` mapped. -/
def Engine.mapCtr (k : Nat) (f : Ctr → Ctr) (e : Engine) : Engine := e.onTempo fun t => { t with ctrs := updAt f k t.ctrs }

/-- Lane `m`. -/
def Engine.lane (e : Engine) (m : Nat) : Lane := nth (.clear 0) e.tempo.lanes m

/-- Lane `m` mapped. -/
def Engine.mapLane (m : Nat) (f : Lane → Lane) (e : Engine) : Engine := e.onTempo fun t => { t with lanes := updAt f m t.lanes }

/-- R520: a write caused by an event stamped now. -/
def Engine.schedule (w : CWrite) (e : Engine) : Engine := e.onTempo fun t => { t with writes := t.writes ++ [(e.stamp + 1, w)] }

/-- Q of R537. -/
def gridQ : Fam → Nat
  | .f48 => 2400000
  | .f44 => 2205000

/-- K of R541. -/
def clockK : Fam → Nat
  | .f48 => 230400000
  | .f44 => 211680000

/-- Table 12-3. -/
def ctrAction (code : Nat) (c : Ctr) : Ctr :=
  if code = 1 then { c with cnt := c.rld }
  else if code = 2 then (if c.run then c else { c with run := true, cnt := c.rld })
  else if code = 3 then { c with run := false }
  else if code = 4 then { c with cnt := c.rld, run := true }
  else c

/-- R517: one step: the counter after it, whether it underflows, whether it matches. -/
def ctrStep (c : Ctr) : Ctr × Bool × Bool :=
  let n := (c.cnt + 0xFFFFFF) % 0x1000000
  let under := n == 0
  let n := if under then c.rld else n
  ({ c with cnt := n, run := c.run && !(under && c.rld == 0) }, under, n == c.cmp && c.cmp != 0)

/-- R521: the gate of a counter is open. -/
def ctrOpen (e : Engine) (c : Ctr) : Bool :=
  if c.gate = 1 then (e.gpAt c.gateEntry).sample == c.gateLevel
  else if c.gate = 2 then e.tempo.running == c.gateLevel
  else true

/-- R516, R518 stage 2: counters from `k` on, `under` those that underflowed, `hit` those that matched. `slaves` steps slaves only. -/
def stepFrom (slaves : Bool) : Nat → Nat → List Nat → List Nat → Engine → List Nat × List Nat × Engine
  | 0, _, under, hit, e => (under, hit, e)
  | n + 1, k, under, hit, e =>
    let c := e.ctr k
    let due := c.run && ctrOpen e c && (match c.master with | some m => under.contains m | none => !slaves)
    if due then
      let (c', u, m) := ctrStep c
      stepFrom slaves n (k + 1) (if u then under ++ [k] else under) (if m then hit ++ [k] else hit) (e.mapCtr k fun _ => c')
    else stepFrom slaves n (k + 1) under hit e

/-! ## Held sets (R551) -/

/-- The keys of part `p`. -/
def Engine.keys (e : Engine) (p : Nat) : List Key := nth [] e.tempo.keys (p - 1)

/-- The keys of part `p` become `l`. -/
def Engine.setKeys (p : Nat) (l : List Key) (e : Engine) : Engine := e.onTempo fun t => { t with keys := t.keys.set (p - 1) l }

/-- ARP_MODE of the part's patch: 0 off, 1 arpeggio, 2 step. -/
def arpMode (c : Memory) (e : Engine) (p : Nat) : Nat := slotE 2 0 (patchSlot c (e.part p).patch 0x190)

/-- LATCH is on for the part. -/
def arpLatch (c : Memory) (e : Engine) (p : Nat) : Bool := decide (arpMode c e p ≠ 0) && slotB (patchSlot c (e.part p).patch 0x196)

/-- The lane that part `p` holds. -/
def laneOf (e : Engine) (p : Nat) : Option Nat := (List.range 4).find? fun m => (e.lane m).part == some p

/-- OCTAVES of the part's patch. -/
def arpOctaves (c : Memory) (e : Engine) (p : Nat) : Nat := slotU 1 4 (patchSlot c (e.part p).patch 0x192)

/-- Table 12-5, as played: the index follows a change of the set. -/
def laneWrap (c : Memory) (p : Nat) (e : Engine) : Engine :=
  match laneOf e p with
  | none => e
  | some m =>
    let n := (e.keys p).length * arpOctaves c e p
    if arpMode c e p = 1 ∧ n ≠ 0 then e.mapLane m fun l => { l with idx := l.idx % n } else e

/-- Keys whose note-off has applied and that nothing keeps leave the set. -/
def purgeKeys (c : Memory) (p : Nat) (e : Engine) : Engine :=
  let keep (k : Key) : Bool := k.down || k.sost || decide (64 ≤ e.ccOf p 64) || arpLatch c e p
  if (e.keys p).all keep then e else laneWrap c p (e.setKeys p ((e.keys p).filter keep))

/-- A key goes down. -/
def keyDown (c : Memory) (p note vel : Nat) (e : Engine) : Engine :=
  let l := e.keys p
  let l := if arpLatch c e p && !l.any (·.down) then [] else l.filter fun k => k.note != note
  laneWrap c p (e.setKeys p (l ++ [⟨note, vel, true, false⟩]))

/-- A key's note-off applies. -/
def keyUp (c : Memory) (p note : Nat) (e : Engine) : Engine :=
  purgeKeys c p (e.setKeys p ((e.keys p).map fun k => if k.note = note then { k with down := false } else k))

/-! ## Lanes (R550 to R559) -/

/-- Table 19-12. -/
def stepDivs : List Nat := [96, 64, 48, 32, 24, 16, 12, 8, 6, 192, 384, 72]

/-- Ps of the part's patch. -/
def lanePs (c : Memory) (e : Engine) (p : Nat) : Nat := nth 24 stepDivs (slotE 11 4 (patchSlot c (e.part p).patch 0x193))

/-- SWING of the part's patch. -/
def laneSwing (c : Memory) (e : Engine) (p : Nat) : W32 := slotF (q32 1 2) (q32 3 4) (patchSlot c (e.part p).patch 0x195)

/-- w of R553; 0 without swing (R807). -/
def laneW (c : Memory) (e : Engine) (p : Nat) : Nat :=
  let ps := lanePs c e p
  (2 * (ps : Rat) * f32Rat (laneSwing c e p) + 1 / 2).floor.toNat - ps

/-- G of R552. -/
def laneG (c : Memory) (e : Engine) (p : Nat) : Nat :=
  if fLt (q32 1 2) (laneSwing c e p) then 2 * lanePs c e p else lanePs c e p

/-- R553: the length of a long or a short step. -/
def laneLen (c : Memory) (e : Engine) (p : Nat) (short : Bool) : Nat :=
  if short then lanePs c e p - laneW c e p else lanePs c e p + laneW c e p

/-- STEP_LEN of the part's patch. -/
def stepLen (c : Memory) (e : Engine) (p : Nat) : Nat := slotU 1 16 (patchSlot c (e.part p).patch 0x199)

/-- STEPi of the part's patch (Table 19-13). -/
def stepWord (c : Memory) (e : Engine) (p i : Nat) : W32 := patchSlot c (e.part p).patch (0x1A0 + i)

/-- The gate fraction of the current step of lane `m` under the patch in force (R554, R558, R808): that of the sequencer step played now, or
γ. -/
def laneGate (c : Memory) (e : Engine) (m p : Nat) : W32 :=
  let own := match (e.lane m).cur with
    | some i => if arpMode c e p = 2 ∧ i < stepLen c e p then slotBits 23 16 (stepWord c e p i) else 0
    | none => 0
  if own = 0 then slotF 0#32 one32 (patchSlot c (e.part p).patch 0x194) else q32 own 255

/-- R554: the compare value of lane `m`. -/
def laneCmp (c : Memory) (e : Engine) (m p : Nat) : Nat :=
  let l := e.lane m
  let g := laneGate c e m p
  let gl := max 1 ((l.len : Rat) * f32Rat g + 1 / 2).floor.toNat
  if l.len ≤ gl then 0 else l.len - gl

/-- The sounding note of lane `m` is released. -/
def laneRelease (c : Memory) (m : Nat) (e : Engine) : Engine :=
  let l := e.lane m
  match l.part, l.snd with
  | some p, some n => noteOffApply c false p n 64 (e.mapLane m fun l => { l with snd := none })
  | _, _ => e

/-- R559: lane `m` stops; the part releases it. The random generator keeps its value. -/
def laneStop (c : Memory) (m : Nat) (e : Engine) : Engine :=
  let e := laneRelease c m e
  (e.mapCtr (4 + m) fun x => { x with run := false }).mapLane m fun l => { Lane.clear m with gen := l.gen }

/-- Every lane stops, by one event. -/
def lanesStop (c : Memory) (e : Engine) : Engine :=
  (List.range 4).foldl (fun e m => if (e.lane m).part.isSome then laneStop c m e else e) e.nextOrder

/-- The ascending notes of a list without repeats. -/
def ascNotes (l : List Nat) : List Nat := (List.range 128).filter fun n => l.contains n

/-- R557: the notes that an arpeggio draws from. -/
def arpNotes (o : Nat) (ks : List Key) : List Nat :=
  ascNotes (ks.flatMap fun k => (List.range o).map fun i => k.note + 12 * i)

/-- One advance of the random generator (R557). -/
def lfsrStep (x : W16) : W16 := if x.getLsbD 0 then (x >>> 1) ^^^ 0xB400#16 else x >>> 1

/-- Table 12-5, as played: held[i mod n] and its octave. -/
def asPlayed (ks : List Key) (i : Nat) : Key × Nat := (nth ⟨0, 0, false, false⟩ ks (i % ks.length), i / ks.length)

/-- Table 12-5: the next note of a lane; none when the step's note is dropped. -/
def arpPick (pat o : Nat) (ks : List Key) (l : Lane) : Option Nat × Lane :=
  let ns := arpNotes o ks
  let above := ns.find? fun n : Nat => decide (l.prev < (n : Int))
  let below := ns.reverse.find? fun n : Nat => decide ((n : Int) < l.prev)
  if pat = 1 then
    let below := ns.reverse.find? fun n : Nat => decide ((n : Int) < (if l.stepTick.isNone then 128 else l.prev))
    ((match below with | some n => some n | none => ns.getLast?), l)
  else if pat = 2 then
    if l.up then
      match above with
      | some n => (some n, l)
      | none => ((match below with | some n => some n | none => ns.head?), { l with up := false })
    else
      match below with
      | some n => (some n, l)
      | none => ((match above with | some n => some n | none => ns.head?), { l with up := true })
  else if pat = 3 then
    let (k, i) := asPlayed ks l.idx
    let note := k.note + 12 * i
    (if note ≤ 127 then some note else none, { l with idx := (l.idx + 1) % (ks.length * o) })
  else if pat = 4 then
    let g := lfsrStep l.gen
    (ns[g.toNat % ns.length]?, { l with gen := g })
  else ((match above with | some n => some n | none => ns.head?), l)

/-- R556: the velocity of a lane note that comes from key `k`. -/
def laneVel (c : Memory) (e : Engine) (p : Nat) (k : Option Key) : Nat :=
  let pt := (e.part p).patch
  if slotE 1 0 (patchSlot c pt 0x197) = 1 then slotU 1 127 (patchSlot c pt 0x198)
  else match k with | some k => k.vel | none => slotU 1 127 (patchSlot c pt 0x198)

/-- The held key of an arpeggio note of lane `l` (R556): held[i mod n] as played; else the key from which the note follows by the fewest octaves,
where the spec names none (log 93). -/
def arpKey (pat o : Nat) (ks : List Key) (l : Lane) (note : Nat) : Option Key :=
  if pat = 3 then some (asPlayed ks l.idx).1
  else ((List.range o).filterMap fun i => ks.find? fun k => k.note + 12 * i == note).head?

/-- A lane starts a note (R556). -/
def laneStart (c : Memory) (m p note vel : Nat) (e : Engine) : Engine :=
  noteOnApply c p note vel (e.mapLane m fun l => { l with snd := some note, prev := note })

/-- R556 to R559: one step of lane `m`; `len` is the length of the step. A sequencer index that a change of patch has left at STEP_LEN or
above counts modulo STEP_LEN (R558, R808, log 92). -/
def laneStep (c : Memory) (m len : Nat) (e : Engine) : Engine :=
  let e := e.nextOrder
  match (e.lane m).part with
  | none => e
  | some p =>
    let ks := e.keys p
    if ks.isEmpty then laneStop c m e
    else
      let pt := (e.part p).patch
      let mode := arpMode c e p
      let o := arpOctaves c e p
      let now := e.tempo.ticks
      let e :=
        if mode = 1 then
          let e := laneRelease c m e
          let pat := slotE 4 0 (patchSlot c pt 0x191)
          let (n, l) := arpPick pat o ks (e.lane m)
          let key := n.bind (arpKey pat o ks (e.lane m))
          let e := e.mapLane m fun _ => { l with tie := false, cur := none }
          match n with
          | some n => laneStart c m p n (laneVel c e p key) e
          | none => e
        else if mode = 2 then
          let l := e.lane m
          let i := l.idx % stepLen c e p
          let w := stepWord c e p i
          let base := ks.getLast?
          let off : Int := (w.extractLsb' 8 8).toInt
          let note := (max 0 (min 127 (((base.map (·.note)).getD 0 : Nat) + off))).toNat
          let on := slotB w
          let cont := l.tie && on && l.snd == some note
          let e := if cont then e else laneRelease c m e
          let e := e.mapLane m fun l => { l with idx := (i + 1) % stepLen c e p, tie := on && w.getLsbD 1, cur := some i }
          if on && !cont then laneStart c m p note (laneVel c e p base) e else e
        else laneRelease c m (e.mapLane m fun l => { l with cur := none })
      let e := e.mapLane m fun l => { l with len := len, short := !l.short, stepTick := some now }
      e.schedule (.lane m)

/-- R552: lane `m` raises its first step at this pulse; its counter runs from here. -/
def laneBegin (c : Memory) (m p : Nat) (e : Engine) : Engine :=
  let len := laneLen c e p false
  let e := e.mapCtr (4 + m) fun x => { x with cnt := len, rld := len, cmp := 0, run := true }
  laneStep c m len (e.mapLane m fun l => { l with going := true, armed := none, short := false })

/-- R550: a note-on of part `p` may take a lane. -/
def laneTake (c : Memory) (p : Nat) (e : Engine) : Engine × Bool :=
  if (laneOf e p).isSome then (e, true)
  else if arpMode c e p = 0 then (e, false)
  else
    match (List.range 4).find? fun m => (e.lane m).part.isNone with
    | none => (e, false)
    | some m => ((e.mapLane m fun l => { Lane.clear m with part := some p, gen := l.gen }).schedule (.arm m), true)

/-! ## Notes of a part (R550, R551) -/

/-- A note-on of part `p` with velocity 1 to 127: a message, or the NOTE action. -/
def partNoteOn (c : Memory) (p note vel : Nat) (e : Engine) : Engine :=
  let e := keyDown c p note vel e
  let (e, held) := laneTake c p e
  if held then e.emit (.noteOn p note) else noteOnApply c p note vel e

/-- A note-off of part `p`. -/
def partNoteOff (c : Memory) (p note rel : Nat) (e : Engine) : Engine :=
  let held := (laneOf e p).isSome
  let e := keyUp c p note e
  if held then e.emit (.noteOff p note) else noteOffApply c true p note rel e

/-! ## Tempo, pulses and transport (R535 to R545) -/

/-- The reload of the pulse after the present one (R537). -/
def nextReload (e : Engine) : Nat :=
  let t := e.tempo
  let q := gridQ e.kettle.fam
  if t.origin then q / t.tempo else q * (t.m + 2) / t.grid - q * (t.m + 1) / t.grid

/-- R538: the tempo becomes `t` at this tick. -/
def tempoTo (t : Nat) (e : Engine) : Engine :=
  let e := e.onTempo fun x => { x with tempo := t, origin := true }
  e.mapCtr 0 fun c => { c with rld := gridQ e.kettle.fam / t }

/-- The tempo limited to its range. -/
def tempoClamp (t : Int) : Nat := (max 200 (min 3000 t)).toNat

/-- T04 for a new internal tempo whose event was stamped before the present apply tick. -/
def writeTempo (e : Engine) : Engine :=
  { e with due := e.due ++ [(e.stamp + 4, 4, BitVec.ofNat 16 e.tempo.tempo)] }

/-- A pulse has fallen: grid event, origin, the lock of R543, the write for the pulse after it, and the lanes that begin here. -/
def pulseAt (c : Memory) (e : Engine) : Engine :=
  let e := e.onTempo fun t =>
    { t with
      events := t.events ++ [(e.target, t.j)]
      tempoChg := if t.grid = t.tempoLive ∧ t.tempoChg.isEmpty then t.tempoChg else t.tempoChg ++ [(e.target, t.grid)] }
  let e := e.schedule .pulse
  let t := e.tempo
  (List.range 4).foldl (fun e m =>
    let l := e.lane m
    match l.part, l.armed with
    | some p, some a => if a < t.ticks ∧ ¬ l.going ∧ t.j % laneG c e p = 0 then laneBegin c m p e else e
    | _, _ => e) e

/-- J goes on by one: the grid counters and the stop of R543. -/
def pulseAdvance (e : Engine) : Engine :=
  let e := e.onTempo fun t =>
    if t.origin then { t with j := t.j + 1, m := 0, grid := t.tempo, origin := false } else { t with j := t.j + 1, m := t.m + 1 }
  match e.tempo.k with
  | some k => if 4 * k + 3 ≤ (e.tempo.j : Int) ∧ e.tempo.catchTo = none then e.mapCtr 0 fun x => { x with run := false } else e
  | none => e

/-- R535: the transport runs with J = 0 at this tick. -/
def transportStart (c : Memory) (e : Engine) : Engine :=
  let beats := slotU 1 16 (sysSlot c e.image 0x005)
  let first := gridQ e.kettle.fam / e.tempo.tempo
  let e := e.onTempo fun t => { t with running := true, j := 0, m := 0, grid := t.tempo, origin := false, catchTo := none, waiting := false }
  let e := e.mapCtr 0 fun x => { x with cnt := first, rld := first, run := true }
  let e := e.mapCtr 1 fun x => { x with cnt := 96, rld := 96, run := true }
  let e := e.mapCtr 2 fun x => { x with cnt := beats, rld := beats, run := true }
  let e := pulseAt c e
  ((e.emit (.counter 0 0)).emit (.counter 1 0)).emit (.counter 2 0)

/-- R544: the transport stops; every lane stops with it (R559). -/
def transportStop (c : Memory) (e : Engine) : Engine :=
  lanesStop c (e.onTempo fun t => { t with running := false, waiting := false, catchTo := none })

/-- R540: external mode is entered. -/
def extEnter (e : Engine) : Engine :=
  if e.tempo.ext then e else e.onTempo fun t => { t with ext := true, clks := [], k := none }

/-- R541: the tempo after an applied clock. Where the intervals span no tick, R541 states no tempo: a free value in its range (log 34). -/
def clockTempo (e : Engine) : Engine :=
  let l := e.tempo.clks
  let n := l.length - 1
  match l.head?, l[n]? with
  | some a, some b =>
    if n = 0 then e
    else if a ≤ b then
      let (i, e) := e.useFree
      tempoTo (tempoClamp (Config.tempoFree i)) e
    else tempoTo (tempoClamp (((clockK e.kettle.fam * n : Nat) : Rat) / ((24 * (a - b) : Nat) : Rat) + (1 / 2 : Rat)).floor) e
  | _, _ => e

/-- R549: the tempo after the intervals of a tap sequence, newest first. -/
def tapTempo (l : List Nat) (e : Engine) : Engine :=
  let s : Nat := l.foldl (· + ·) 0
  if l.isEmpty ∨ s = 0 then e
  else writeTempo (tempoTo (tempoClamp (((clockK e.kettle.fam * l.length : Nat) : Rat) / (s : Rat) + (1 / 2 : Rat)).floor) e)

/-- R548: the conductor reads the capture of T3. -/
def tapRead (e : Engine) : Engine :=
  let x := e.ctr 3
  let stopped := e.tempo.tapStopped
  let e := e.mapCtr 3 fun c => { c with cap := none, ovf := false }
  match x.cap with
  | none => e
  | some cap =>
    if e.tempo.ext then e
    else if x.ovf ∨ stopped then e.onTempo fun t => { t with taps := [] }
    else
      let i := 0xFFFFFF - cap
      if i < ticksOf e.kettle.fam (1 / 5) then e
      else
        let l := (i :: e.tempo.taps).take 4
        tapTempo l (e.onTempo fun t => { t with taps := l })

/-- R532 for counter `k`: the capture at this tick. -/
def ctrCapture (k : Nat) (e : Engine) : Engine :=
  let x := e.ctr k
  match x.cap with
  | some _ => e.mapCtr k fun c => { c with ovf := true }
  | none => (e.mapCtr k fun c => { c with cap := some c.cnt }).schedule (if k = 3 then .tapRead else .capRead k)

/-- A tap at this tick: capture on T3 (R546, R548). `hit` says that T3's timeout match falls at this tick (R566). -/
def tapCapture (hit : Bool) (e : Engine) : Engine :=
  let x := e.ctr 3
  let stop := !x.run || hit || e.tempo.tapEnded
  let e := if x.cap.isNone then e.onTempo fun t => { t with tapStopped := stop, tapEnded := false } else e
  ctrCapture 3 e

/-! ## Start at F (R535, R848, R849) and relock (R560) -/

/-- Slot `o` of binding counter `k`. -/
def ctrSlot (c : Memory) (im : Image) (k o : Nat) : W32 := sysSlot c im (0x5C0 + 8 * (k - 8) + o)

/-- R523, R534, R848: the master of binding counter `k`. -/
def ctrMaster (c : Memory) (im : Image) (k : Nat) : Option Nat :=
  let m := slotBits 7 4 (ctrSlot c im k 0)
  if 8 ≤ m ∧ m < k then some m else none

/-- A reload or compare value of binding counter `k` (R849). -/
def ctrValue (c : Memory) (e : Engine) (k o : Nat) : Nat :=
  let w := ctrSlot c e.image k o
  if slotBits 1 1 (ctrSlot c e.image k 0) = 1 ∧ (ctrMaster c e.image k).isNone then
    let t := slotU 0 43000 w
    if t = 0 then 0 else msTicks e.kettle.fam t
  else slotU 0 0xFFFFFF w

/-- Binding counter `k` at F. -/
def bindingCtr (c : Memory) (e : Engine) (k : Nat) : Ctr :=
  let cfg := ctrSlot c e.image k 0
  let act (hi lo : Nat) : Nat := let a := slotBits hi lo cfg; if 4 < a then 0 else a
  let g := ctrSlot c e.image k 3
  let cp := ctrSlot c e.image k 4
  let gk := slotBits 1 0 g
  let ge := slotBits 11 8 g
  let ce := slotBits 11 8 cp
  let ed := slotBits 17 16 cp
  let lk := slotBits 11 8 cfg
  let r := ctrValue c e k 1
  { cnt := r, rld := r, cmp := ctrValue c e k 2, run := slotB cfg && decide (r ≠ 0)
    gate := if gk = 1 ∧ gpInput c e ge then 1 else if gk = 2 then 2 else 0
    gateEntry := ge, gateLevel := slotBits 16 16 g == 1
    master := ctrMaster c e.image k
    capOn := if slotBits 1 0 cp = 1 ∧ gpInput c e ce then some ce else none
    capEdge := if ed = 3 then 2 else ed, cap := none, ovf := false
    mSelf := act 14 12, mLink := act 17 15, uSelf := act 20 18, uLink := act 23 21
    link := if 8 ≤ lk then some lk else none }

/-- T3's compare value (R547). -/
def tapCmp : Fam → Nat
  | .f48 => 0xFFFFFF - 1152000
  | .f44 => 0xFFFFFF - 1058400

/-- R535 at strobe F: the counters start with the tempo `t04` of the record in force. -/
def tempoAtF (c : Memory) (t04 : Nat) (e : Engine) : Engine :=
  let t0 : Ctr := { Ctr.clear with gate := 2, gateLevel := true }
  let sl (m : Nat) : Ctr := { Ctr.clear with master := some m }
  let t3 : Ctr := { Ctr.clear with rld := 0xFFFFFF, cmp := tapCmp e.kettle.fam, mSelf := 3 }
  let cs := [t0, sl 0, sl 1, t3, sl 0, sl 0, sl 0, sl 0] ++ (List.range 8).map fun i => bindingCtr c e (8 + i)
  let e := e.onTempo fun t => { t with ctrs := cs, tempo := t04, grid := t04, tempoLive := t04, origin := false, ticks := 0 }
  transportStart c e

/-- The scaled count of R560; a count that does not fit 24 bits is a free value (log 22). -/
def scaleCnt (qo qn : Nat) (c : Ctr) (e : Engine) : Nat × Engine :=
  let n := max 1 ((c.cnt : Rat) * (qn : Rat) / (qo : Rat) + (1 / 2 : Rat)).floor.toNat
  if n ≤ 0xFFFFFF then (n, e)
  else let (k, e) := e.useFree; (Config.counterFree k % 0x1000000, e)

/-- R560 at tRT: `old` is the family that ends; the new one is in force. -/
def tempoRelock (c : Memory) (old : Fam) (e : Engine) : Engine :=
  let e := (List.range 16).foldl (fun e k =>
    let x := e.ctr k
    let e :=
      if x.run ∧ x.master = none then
        let (n, e) := scaleCnt (gridQ old) (gridQ e.kettle.fam) x e
        e.mapCtr k fun x => { x with cnt := n }
      else e
    if 8 ≤ k then e.mapCtr k fun x => { x with rld := ctrValue c e k 1 } else e) e
  let e := e.mapCtr 3 fun x => { x with cmp := tapCmp e.kettle.fam }
  let e := tempoTo e.tempo.tempo e
  e.onTempo fun t => { t with taps := [], tapStopped := true, tapEnded := true, clks := [] }

end Sys2Proof.Machine
end

