-- ==== Sys2Proof/Machine/Parts.lean ====
section
/-! DEFINITION. The channel messages of a part (07, §7.6 and §7.7) and the delivery of messages from RXD. -/

namespace Sys2Proof.Machine

/-- The bend-range slot of a patch, exactly. -/
def bendSlot (c : Memory) (patch : Option Nat) : Rat := f32Rat (slotF 0#32 (q32 24) (patchSlot c patch 0x00C))

/-- R287: B from the bend-range slot with the parameter's MSB and LSB. -/
def withBend (c : Memory) (patch : Option Nat) (r : PartRec) : PartRec :=
  let b := bendSlot c patch
  let n := (100 * b + 1 / 2).floor.toNat
  { r with bendRange := b, bendMsb := n / 100, bendLsb := n % 100 }

/-- R284: program change to patch `prog` of bank `bank`, which also writes the part's thermos word. -/
def selectPatch (c : Memory) (p bank prog : Nat) (e : Engine) : Engine :=
  let r := e.part p
  let patch := resolvePatch e.image bank prog
  let old := partMode c e p
  let r' := withBend c patch { r with bank := bank, patchNo := prog, patch := patch, macros := macrosInit c patch e.target }
  let e := e.setPart p r'
  let e := if partMode c e p ≠ old then e.setStack p [] else e
  let e := purgeKeys c p (laneWrap c p e)
  let e := match laneOf e p with
    | some m => if (e.lane m).going then e.schedule (.lane m) else e
    | none => e
  e.writeWord (0x10 + (p - 1)) (BitVec.ofNat 16 (prog + 128 * bank))

/-- R284: a program-change message. -/
def programChangeOp (c : Memory) (p prog : Nat) (e : Engine) : Engine :=
  match (e.part p).latch with
  | none => selectPatch c p (defaultBank e.straps) prog e
  | some (some b) => selectPatch c p b prog e
  | some none => e

/-- R287, Table 7-6: Data Entry. -/
def dataEntry (msb : Bool) (v : Nat) (r : PartRec) : PartRec :=
  let bend (r : PartRec) : PartRec :=
    { r with bendRange := min 24 ((r.bendMsb : Rat) + ((min r.bendLsb 99 : Nat) : Rat) / 100) }
  if r.rpnMsb = 0 ∧ r.rpnLsb = 0 then bend (if msb then { r with bendMsb := v } else { r with bendLsb := v })
  else if r.rpnMsb = 0 ∧ r.rpnLsb = 1 then (if msb then { r with fineMsb := v } else { r with fineLsb := v })
  else if r.rpnMsb = 0 ∧ r.rpnLsb = 2 then (if msb then { r with coarseMsb := v } else { r with coarseLsb := v })
  else r

/-- CC 64 turns off (R438). -/
def sustainOff (c : Memory) (p : Nat) (e : Engine) : Engine := purgeKeys c p (releaseDeferred p (fun r => !r.latched) e)

/-- CC 66 turns on (R436). -/
def sostenutoOn (p : Nat) (e : Engine) : Engine :=
  (latchHeld p e).setKeys p ((e.keys p).map fun k => if k.down then { k with sost := true } else k)

/-- CC 66 turns off (R439). -/
def sostenutoOff (c : Memory) (p : Nat) (e : Engine) : Engine :=
  let e := unlatch p e
  let e := if 64 ≤ e.ccOf p 64 then e else releaseDeferred p (fun _ => true) e
  purgeKeys c p (e.setKeys p ((e.keys p).map fun k => { k with sost := false }))

/-- R288: CC 121. The spec gives no order between the pressure entries and the RELEASE entries that one CC 121 writes; the model writes the
pressure entries first (log 108). -/
def resetControllers (c : Memory) (p : Nat) (e : Engine) : Engine :=
  let r := e.part p
  let cc := ((((((r.cc.set 1 0).set 2 0).set 4 0).set 11 127).set 64 0).set 65 0).set 66 0
  let e := e.setPart p { r with cc := cc, porta := none, bend := 8192, pressure := 0, rpnMsb := 127, rpnLsb := 127 }
  let e := (heads (e.ofPart p)).foldl (fun e r => writeGroup r (.pressure 0) e) e
  let e := releaseDeferred p (fun _ => true) (unlatch p e)
  purgeKeys c p (e.setKeys p ((e.keys p).map fun k => { k with sost := false }))

/-- R440, R551: CC 120 also clears the deferrals and latches that keep keys in the held set. -/
def clearKept (c : Memory) (p : Nat) (e : Engine) : Engine :=
  laneWrap c p (e.setKeys p (((e.keys p).filter fun k => k.down || arpLatch c e p).map fun k => { k with sost := false }))

/-- CC 123 to 127 (Table 7-5). -/
def allNotesOffOp (c : Memory) (p : Nat) (e : Engine) : Engine :=
  if (laneOf e p).isSome then
    ((List.range 128).filter fun n => (e.keys p).any fun k => k.note == n && k.down).foldl (fun e n => partNoteOff c p n 64 e) e
  else
    let st := e.stack p
    let e := st.foldl (fun e n => partNoteOff c p n 64 e) e
    (heldNotes p e).foldl (fun e n => partNoteOff c p n 64 e) e

/-- R286, Table 7-5: a control change of part `p`. -/
def controlChangeOp (c : Memory) (p k v : Nat) (e : Engine) : Engine :=
  if 120 ≤ k then
    let e := e.nextOrder
    if k = 120 then clearKept c p (allSoundOffOp p e)
    else if k = 121 then resetControllers c p e
    else if 123 ≤ k then allNotesOffOp c p e
    else e
  else
    let r := e.part p
    let old := nth 0 r.cc k
    let r := { r with cc := r.cc.set k v }
    let r :=
      if k = 0 then { r with latch := some (if v ≤ 3 then some v else none) }
      else if k = 6 then dataEntry true v r
      else if k = 38 then dataEntry false v r
      else if k = 65 then { r with porta := some (decide (64 ≤ v)) }
      else if k = 98 ∨ k = 99 then { r with rpnMsb := 127, rpnLsb := 127 }
      else if k = 100 then { r with rpnLsb := v }
      else if k = 101 then { r with rpnMsb := v }
      else r
    let e := e.setPart p r
    if 16 ≤ k ∧ k ≤ 19 then macroTarget c p (k - 16) (q32 v 127) e
    else if 80 ≤ k ∧ k ≤ 83 then macroTarget c p (k - 76) (q32 v 127) e
    else if k = 64 then (if v < 64 then sustainOff c p e.nextOrder else e)
    else if k = 66 then
      (if 64 ≤ v then (if old < 64 then sostenutoOn p e else e) else if 64 ≤ old then sostenutoOff c p e.nextOrder else e)
    else e

/-- Table 7-4: a complete channel message takes effect. -/
def applyMessage (c : Memory) (bs : List Byte) (e : Engine) : Engine :=
  match bs with
  | st :: r =>
    let p := st.toNat % 16 + 1
    let a := (nth 0#8 r 0).toNat
    let b := (nth 0#8 r 1).toNat
    if partOn c e p then
      match st.toNat / 16 with
      | 8 => partNoteOff c p a b e.nextOrder
      | 9 => if b = 0 then partNoteOff c p a 64 e.nextOrder else partNoteOn c p a b e.nextOrder
      | 10 => keyPressure p a b e
      | 11 => controlChangeOp c p a b e
      | 12 => programChangeOp c p a e
      | 13 => e.setPart p { e.part p with pressure := a }
      | 14 => e.setPart p { e.part p with bend := 128 * b + a }
      | _ => e
    else e
  | [] => e

/-- A real-time byte takes effect (Table 7-7, §12.8): events to the counters under AUTO. -/
def applyRealTime (c : Memory) (b : Byte) (e : Engine) : Engine :=
  if slotE 1 0 (sysSlot c e.image 0x004) = 0 then e
  else if b = 0xF8#8 then e.schedule .clock
  else if b = 0xFA#8 then e.schedule .start
  else if b = 0xFB#8 then e.schedule .resume
  else if b = 0xFC#8 then e.schedule .stop
  else e

/-- A complete message takes effect, channel message or real-time byte. -/
def applyAny (c : Memory) (bs : List Byte) (e : Engine) : Engine :=
  match bs with
  | [b] => applyRealTime c b e
  | _ => applyMessage c bs e

/-- R279: a complete message is applied, or held during steep (R181, R182). -/
def deliver (c : Memory) (bs : List Byte) (t : Time) (e : Engine) : Engine :=
  if e.served then applyAny c bs e else holdMessage ⟨bs, periodsAt t⟩ e

/-- The receiver takes the MIDI character whose S9 falls at `t` (R260, R290). -/
def midiDue (t : Nat) (e : Engine) : Bool :=
  armedAt ((t : Rat) + 1 - 19 / 2 * e.link.tr.getD 0) e && decide (e.mode ≠ .load)

/-- One byte to the parser (R274 to R279), received whole at `t`. -/
def parseByte (c : Memory) (t : Time) (e : Engine) (b : Byte) : Engine :=
  let (p, msg, cut) := e.link.parser.step b
  let e := { e with link := { e.link with
    parser := p
    partialCount := if cut then sat16 (e.link.partialCount + 1) else e.link.partialCount } }
  match msg with
  | some bs => deliver c bs t e
  | none => e

/-- The bytes of one message arrive, the last one complete at `t`. -/
def parseMessage (c : Memory) (bs : List Byte) (t : Nat) (e : Engine) : Engine :=
  if midiDue t e then
    let e := bs.foldl (parseByte c (t : Rat)) e
    { e with link := { e.link with ref := some (t : Rat) } }
  else e

/-- A status byte of channel `ch`. -/
def statusByte (n : Nat) (ch : BitVec 4) : Byte := BitVec.ofNat 8 (16 * n + ch.toNat)

/-- A data byte. -/
def dataByte (v : BitVec 7) : Byte := v.setWidth 8

end Sys2Proof.Machine
end

