-- ==== Sys2Proof/Machine/Actions.lean ====
section
/-! DEFINITION. Dial targets, bindings and the catalogue of actions (20.5, 20.8). -/

namespace Sys2Proof.Machine

/-- A part 1 to 16 that the part table enables. -/
def partIn (c : Memory) (e : Engine) (p : Nat) : Bool := decide (1 ≤ p) && decide (p ≤ 16) && partOn c e p

/-- Code 1. -/
def actVolumeStep (v : Int) (e : Engine) : Engine :=
  if -255 ≤ v ∧ v ≤ 255 then setVolume (max 0 (min 255 ((e.mix.index : Int) + v))).toNat e else e

/-- Code 2. -/
def actVolumeSet (v : Int) (e : Engine) : Engine := if 0 ≤ v ∧ v ≤ 255 then setVolume v.toNat e else e

/-- Code 6. -/
def actSourceSet (v : Int) (e : Engine) : Engine := if 0 ≤ v ∧ v ≤ 2 then setSource v.toNat e else e

/-- Code 7. -/
def actSourceCycle (e : Engine) : Engine := setSource ((e.mix.source + 1) % 3) e

/-- Code 8. -/
def actProfileSet (v : Int) (e : Engine) : Engine := if 0 ≤ v ∧ v ≤ 15 then setProfile v.toNat e else e

/-- Code 9. -/
def actProfileStep (v : Int) (e : Engine) : Engine := setProfile (((e.mix.profile : Int) + v) % 16).toNat e

/-- Code 10. -/
def actPatchSet (c : Memory) (p bank : Nat) (v : Int) (e : Engine) : Engine :=
  if partIn c e p ∧ (bank ≤ 3 ∨ bank = 255) ∧ 0 ≤ v ∧ v ≤ 127 then
    selectPatch c p (if bank = 255 then defaultBank e.straps else bank) v.toNat e
  else e

/-- Code 11. -/
def actPatchStep (c : Memory) (p : Nat) (v : Int) (e : Engine) : Engine :=
  if partIn c e p then selectPatch c p (e.part p).bank ((((e.part p).patchNo : Int) + v) % 128).toNat e else e

/-- Code 12. -/
def actMacroSet (c : Memory) (p m : Nat) (w : W32) (e : Engine) : Engine :=
  if partIn c e p ∧ 1 ≤ m ∧ m ≤ 8 then macroTarget c p (m - 1) (fClamp 0#32 one32 w) e else e

/-- Code 13. -/
def actMacroStep (c : Memory) (p m : Nat) (w : W32) (e : Engine) : Engine :=
  if partIn c e p ∧ 1 ≤ m ∧ m ≤ 8 then macroTarget c p (m - 1) (fClamp 0#32 one32 (fAdd (macroGoal e p (m - 1)) w)) e else e

/-- Code 14. -/
def actTap (e : Engine) : Engine := e.schedule .tap

/-- Code 15. -/
def actTempoStep (v : Int) (e : Engine) : Engine := e.schedule (.tempoStep v)

/-- Code 16. -/
def actTransport (a : Nat) (e : Engine) : Engine := if a ≤ 2 then e.schedule (.transport a) else e

/-- Code 17. -/
def actCcSend (c : Memory) (p k v : Nat) (e : Engine) : Engine :=
  if partIn c e p ∧ k ≤ 127 ∧ v ≤ 127 then controlChangeOp c p k v e else e

/-- Code 18. -/
def actNote (c : Memory) (p n v : Nat) (e : Engine) : Engine :=
  if partIn c e p ∧ n ≤ 127 ∧ v ≤ 127 then (if v = 0 then partNoteOff c p n 64 e.nextOrder else partNoteOn c p n v e.nextOrder) else e

/-- Code 19. -/
def actCounter (k a : Nat) (e : Engine) : Engine :=
  if 8 ≤ k ∧ k ≤ 15 ∧ 1 ≤ a ∧ a ≤ 4 then e.schedule (.act k a) else e

/-- Code 24. -/
def actDuck (w a : Nat) (e : Engine) : Engine := if w ≤ 1 ∧ a ≤ 2 then setDuck w a e else e

/-- Code 25. -/
def actWet (i : Nat) (w : W32) (e : Engine) : Engine := if i ≤ 2 then setWet i w e else e

/-- R842, Table 20-11: one action with its arguments. -/
def runAction (c : Memory) (code a1 a2 a3 : Nat) (w : W32) (e : Engine) : Engine :=
  let v := w.toInt
  match code with
  | 1 => actVolumeStep v e
  | 2 => actVolumeSet v e
  | 3 => setMute (!e.mix.muted) e
  | 4 => setMute true e
  | 5 => setMute false e
  | 6 => actSourceSet v e
  | 7 => actSourceCycle e
  | 8 => actProfileSet v e
  | 9 => actProfileStep v e
  | 10 => actPatchSet c a1 a2 v e
  | 11 => actPatchStep c a1 v e
  | 12 => actMacroSet c a1 a2 w e
  | 13 => actMacroStep c a1 a2 w e
  | 14 => actTap e
  | 15 => actTempoStep v e
  | 16 => actTransport a1 e
  | 17 => actCcSend c a1 a2 a3 e
  | 18 => actNote c a1 a2 a3 e
  | 19 => actCounter a1 a2 e
  | 20 => pinAction c a1 .set e
  | 21 => pinAction c a1 .clear e
  | 22 => pinAction c a1 .toggle e
  | 23 => pinAction c a1 (.level a2) e
  | 24 => actDuck a1 a2 e
  | 25 => actWet a1 w e
  | _ => e

/-- A mask selects bit `b`. -/
def maskHas (mask b : Nat) : Bool := mask / 2 ^ b % 2 == 1

/-- R841, Table 20-10: the event fits the source word `s`. -/
def evMatches (s : W32) : Ev → Bool :=
  let k := slotBits 7 0 s
  let i1 := slotBits 15 8 s
  let i2 := slotBits 23 16 s
  let noteFits (p n : Nat) : Bool := (i1 == 0 || i1 == p) && (i2 == 0 || (decide (i2 ≤ 128) && i2 == n + 1))
  fun
  | .irKey en b => k == 1 && i1 == en && maskHas i2 b
  | .gp en b => k == 2 && i1 == en && maskHas i2 b
  | .ladder d key rel => k == 3 && i1 == d && i2 % 8 == key && maskHas i2 3 == rel
  | .dial d _ => k == 4 && i1 == d
  | .noteOn p n => k == 5 && noteFits p n
  | .noteOff p n => k == 6 && noteFits p n
  | .counter n kind => k == 7 && i1 == n && i2 == kind
  | .battery st => k == 8 && i2 == st
  | .fault code => k == 9 && (i1 == 0 || i1 == code)

/-- Slot `o` of binding `b`. -/
def bindSlot (c : Memory) (im : Image) (b o : Nat) : W32 := sysSlot c im (0x480 + 4 * b + o)

/-- R834: Uc of a dial event. -/
def dialCurve (c : Memory) (im : Image) (i u : Nat) : Nat :=
  match slotE 2 0 (dialSlot c im i 5) with
  | 1 => u * u / 65535
  | 2 => 65535 - u
  | _ => u

/-- R835, Table 20-6: the target of a dial event. -/
def dialTarget (c : Memory) (i u : Nat) (e : Engine) : Engine :=
  let w := dialSlot c e.image i 4
  let p := slotBits 15 8 w
  let x := slotBits 23 16 w
  let uc := dialCurve c e.image i u
  match slotBits 7 0 w with
  | 1 => setVolume ((255 * uc + 32767) / 65535) e
  | 2 => if partIn c e p ∧ x ≤ 119 then controlChangeOp c p x ((127 * uc + 32767) / 65535) e else e
  | 3 => if partIn c e p ∧ 1 ≤ x ∧ x ≤ 8 then macroTarget c p (x - 1) (q32 uc 65535) e else e
  | 4 => e.schedule (.tempo (200 + (2800 * uc + 32767) / 65535))
  | 5 => if x ≤ 2 then setWet x (q32 uc 65535) e else e
  | _ => e

/-- The target of a dial event. -/
def eventTarget (c : Memory) (v : Ev) (e : Engine) : Engine :=
  match v with
  | .dial i u => dialTarget c i u e
  | _ => e

/-- One event: the target of a dial event, then every matching binding in ascending index (R709, R853). -/
def handleEvent (c : Memory) (v : Ev) (e : Engine) : Engine :=
  let e := eventTarget c v e
  (List.range 64).foldl (fun e b =>
    if evMatches (bindSlot c e.image b 0) v then
      let a := bindSlot c e.image b 1
      runAction c (slotBits 7 0 a) (slotBits 15 8 a) (slotBits 23 16 a) (slotBits 31 24 a) (bindSlot c e.image b 2) e
    else e) e

/-- The events that wait, in their order; events that actions cause follow those that already wait. What is left after `fuel` events
waits for the next command (log 11). -/
def drain (c : Memory) : Nat → Engine → Engine
  | 0, e => e
  | fuel + 1, e =>
    match e.evq with
    | [] => e
    | v :: r => drain c fuel (handleEvent c v { e with evq := r })

/-- Every event that waits is handled. -/
def Engine.settle (c : Memory) (e : Engine) : Engine := drain c 4096 e

/-- The event is that of a fault. -/
def Ev.isFault : Ev → Bool
  | .fault _ => true
  | _ => false

/-- The latest command has acted at the last strobe. -/
def Engine.atStrobe (e : Engine) : Bool := e.strobe.started && decide (e.now = e.strobe.last)

/-- R866: while the engine stands at a strobe the fault events wait, so that what else is found at that strobe joins them in ascending code;
they are handled before the next command that does not act at the strobe. -/
def Engine.settleAt (c : Memory) (e : Engine) : Engine :=
  let q := e.evq
  let e := Engine.settle c { e with evq := q.filter fun v => !v.isFault }
  { e with evq := q.filter Ev.isFault ++ e.evq }

/-- What `g` does while the events that wait are put aside. -/
def Engine.apart (g : Engine → Engine) (e : Engine) : Engine :=
  let q := e.evq
  let e := g { e with evq := [] }
  { e with evq := q ++ e.evq }

/-- R866: fault events in ascending code, those of one code in their order. -/
def sortFaults (l : List Ev) : List Ev :=
  l.foldl (fun l v => match v with
    | .fault k => insertAt (Ev.laterFault k) v l
    | _ => l ++ [v]) []

end Sys2Proof.Machine
end

