-- ==== Sys2Proof/Machine/Input.lean ====
section
/-! DEFINITION. The program input (08): formats, the run that gives lock, the rate classification, and the words, starts, good and
erroneous frames of a locked input. -/

namespace Sys2Proof.Machine

/-- The input formats (Table 8-1). -/
inductive InFmt where
  | tdm8 | tdm4 | lj | i2s
deriving DecidableEq, Repr

/-- The reference policies (Table 4-5). -/
inductive Policy where
  | xf48 | xf44 | wclk | xfol
deriving DecidableEq, Repr

/-- Table 6-6: the input format of a STRAP_C level. -/
def inFmt (c : Nat) : InFmt := if c % 4 = 0 then .tdm8 else if c % 4 = 1 then .tdm4 else if c % 4 = 2 then .lj else .i2s

/-- Table 6-6: the policy of a STRAP_C level; XF48 in Load mode (R738). -/
def policy (e : Engine) : Policy :=
  if e.mode = .load then .xf48
  else match e.straps.c / 4 with
    | 0 => .xf48
    | 1 => .xf44
    | 2 => .wclk
    | _ => .xfol

/-- The number of words of a format in one frame. -/
def slotsOf : InFmt → Nat
  | .tdm8 => 8
  | .tdm4 => 4
  | .lj => 2
  | .i2s => 2

/-- The WS_IN level after a starting edge (Table 8-1). -/
def startLevel : InFmt → Bool
  | .i2s => false
  | _ => true

/-- Table 8-3: the largest frame rate of C, in units of 10 Hz; 0 for a C that the format does not accept. -/
def maxRate (f : InFmt) (c : Nat) : Nat :=
  match f with
  | .i2s | .lj => if c = 32 ∨ c = 48 ∨ c = 64 then 19600 else 0
  | .tdm4 => if c = 64 ∨ c = 96 then 19600 else if c = 128 then 19530 else 0
  | .tdm8 => if c = 128 then 19530 else if c = 192 then 13020 else if c = 256 then 9766 else 0

/-- A frame period in tQ as a rate in Hz. -/
def rateOf (pm : Time) : Rat := 393216000 / pm

/-- R318, R319 (the limits of R319 in its own decimals, log 19). -/
def rateOk (f : InFmt) (c : Nat) (pm : Time) : Bool :=
  decide (maxRate f c ≠ 0) && decide (rateOf pm ≤ (10 * maxRate f c : Nat)) &&
    decide ((5102 : Rat) * 393216 / 1000000 ≤ pm) && decide (pm ≤ (128205 : Rat) * 393216 / 1000000) &&
    decide ((c : Rat) * 393216000 / pm ≤ 25000000)

/-- The rates of Table 4-6 in table order, in Hz. -/
def table46 : List Nat := [8000, 12000, 16000, 24000, 32000, 48000, 64000, 96000, 128000, 192000, 11025, 22050, 44100, 88200, 176400]

/-- R327: the row of Table 4-6 within ±0.5 %, or 15. -/
def rateRow (pm : Time) : Nat :=
  ((List.range 15).find? fun i =>
    let r : Rat := (nth 0 table46 i : Nat)
    decide (995 * r ≤ 1000 * rateOf pm) && decide (1000 * rateOf pm ≤ 1005 * r)).getD 15

/-- R135: the family of a row. -/
def rowFam (row : Nat) : Option Fam := if row < 10 then some .f48 else if row < 15 then some .f44 else none

/-- R327: P_ref. -/
def prefOf (pm : Time) : Time :=
  let row := rateRow pm
  if row < 15 then 393216000 / (nth 1 table46 row : Nat) else pm

/-! ## Acquiring lock (R325, R326) -/

/-- The edges of a run cut at its starting edges: each candidate with its edges from its starting edge on. The level before the first
edge is the opposite of the start level. -/
def cutRun (lvl : Bool) : Bool → List BckEdge → List BckEdge → List (List BckEdge)
  | _, cur, [] => [cur.reverse]
  | prev, cur, x :: r =>
    if x.ws = lvl ∧ prev ≠ lvl ∧ ¬ cur.isEmpty then cur.reverse :: cutRun lvl x.ws [x] r
    else cutRun lvl x.ws (x :: cur) r

/-- The index of the first edge of the opposite sense in a candidate, and how many such changes it holds. -/
def midOf (lvl : Bool) (es : List BckEdge) : Nat := (es.findIdx fun x => x.ws != lvl)

/-- How many WS_IN changes a list of edges shows after the level `prev`. -/
def changes : Bool → List BckEdge → Nat
  | _, [] => 0
  | prev, x :: r => (if x.ws = prev then 0 else 1) + changes x.ws r

/-- The conditions of R325 on the words of one candidate. -/
def candOk (f : InFmt) (c : Nat) (es : List BckEdge) : Bool :=
  es.length == c &&
    (match f with
      | .i2s | .lj => changes (startLevel f) es == 1 && 2 * midOf (startLevel f) es == c
      | .tdm4 | .tdm8 => c % slotsOf f == 0)

/-- A run that is complete: C, Pm, the periods newest first, and the starting edge that ends the eighth candidate. -/
structure RunResult where
  c : Nat
  pm : Time
  periods : List Time
  last : BckEdge

/-- A candidate frame: its edges from its starting edge on, and its period up to the next starting edge. -/
structure Candidate where
  edges : List BckEdge
  period : Time
deriving DecidableEq, Repr

/-- The candidates of a list of edges that begins at a starting edge, with the edges after the last starting edge. -/
def candidates : List (List BckEdge) → List Candidate × List BckEdge
  | [] => ([], [])
  | [z] => ([], z)
  | a :: b :: r =>
    let start (l : List BckEdge) : Nat := (l.head?.map (·.t)).getD 0
    let (cs, z) := candidates (b :: r)
    (⟨a, ((start b : Nat) : Rat) - ((start a : Nat) : Rat)⟩ :: cs, z)

/-- R325: candidate `x` may continue the run `run` (oldest first). -/
def continuesRun (f : InFmt) (run : List Candidate) (x : Candidate) : Bool :=
  match run with
  | [] => candOk f x.edges.length x.edges && decide (0 < x.period)
  | a :: _ =>
    candOk f a.edges.length x.edges && decide (98 * a.period ≤ 100 * x.period) && decide (100 * x.period ≤ 102 * a.period)

/-- R325: the run after the candidates of a list; a candidate that breaks the conditions ends the run, and a new one starts with the
candidate that follows it. None: a run of eight was complete before the last candidate. -/
def runAfter (f : InFmt) : List Candidate → List Candidate → Option (List Candidate)
  | run, [] => some run
  | run, x :: r => if 8 ≤ run.length then none else runAfter f (if continuesRun f run x then run ++ [x] else []) r

/-- R325, R326: the run that the last of the edges completes, when it completes one. The first edge is a starting edge. -/
def runOf (f : InFmt) (edges : List BckEdge) : Option RunResult :=
  let lvl := startLevel f
  let (cs, rest) := candidates (cutRun lvl (!lvl) [] edges)
  match runAfter f [] cs, rest with
  | some run, [z] =>
    match run with
    | [] => none
    | a :: _ =>
      if run.length = 8 ∧ (edges.head?.map (·.ws)) = some lvl then
        some ⟨a.edges.length, ((run.map (·.period)).foldl (· + ·) 0) / 8, (run.map (·.period)).reverse, z⟩
      else none
  | _, _ => none

/-- The input after the declaration of lock (R326, R327, R329). -/
def Input.lockAt (r : RunResult) (i : Input) : Input :=
  { i with
    locked := true
    row := rateRow r.pm
    c := r.c
    pm := r.pm
    pref := prefOf r.pm
    periods := r.periods
    start := some r.last
    expect := (r.last.t : Rat)
    ws := r.last.ws
    prevGood := true
    errRun := 0
    hold := List.replicate 4 0#24
    rateRaised := false }

/-! ## Frames while locked (R330 to R341) -/

/-- R322: the first `n` bits (at most 24) of a word, at the top of a 24-bit value. -/
def wordBits (bits : List Bool) : W24 :=
  let b := bits.take 24
  BitVec.ofNat 24 (b.foldl (fun a x => 2 * a + x.toNat) 0 * 2 ^ (24 - b.length))

/-- Table 8-4 for a word with bits `bits` of the identity: its sample, when one is formed. -/
def wordSample (ln : Nat) (bits : List Bool) : Option W24 :=
  if bits.length < 16 then none else some (wordBits (bits.take ln))

/-- The words of one frame: for each identity the bits of SD_IN0 and SD_IN1. -/
structure Words where
  sd0 : List (List Bool)
  sd1 : List (List Bool)
  stray : Bool

/-- The index in `es` of each WS_IN change after the level `prev`. -/
def changeIdx : Nat → Bool → List BckEdge → List Nat
  | _, _, [] => []
  | k, prev, x :: r => if x.ws = prev then changeIdx (k + 1) x.ws r else k :: changeIdx (k + 1) x.ws r

/-- Elements `a` to `b - 1`. -/
def slice {α : Type} (a b : Nat) (l : List α) : List α := (l.take b).drop a

/-- Table 8-1 with R332: the words of a frame that begins at `s`; `es` are the later edges of its span, `hasNext` says that the last
of them is the start of the next frame. -/
def wordsOf (f : InFmt) (w : Nat) (s : BckEdge) (es : List BckEdge) (hasNext : Bool) : Words :=
  let ch := changeIdx 0 s.ws es
  let n := es.length
  let ch' := if hasNext then ch.dropLast else ch
  match f with
  | .i2s =>
    let m := nth n ch' 0
    let stop := nth n ch' 1
    let l := slice 0 (m + 1) es
    let r := if n ≤ m then [] else slice (m + 1) (stop + 1) es
    ⟨[l.map (·.sd0), r.map (·.sd0)], [l.map (·.sd1), r.map (·.sd1)], decide (1 < ch'.length)⟩
  | .lj =>
    let body := if hasNext then es.dropLast else es
    let m := nth body.length ch' 0
    let stop := nth body.length ch' 1
    let l := s :: slice 0 m body
    let r := slice m stop body
    ⟨[l.map (·.sd0), r.map (·.sd0)], [l.map (·.sd1), r.map (·.sd1)], decide (1 < ch'.length)⟩
  | .tdm4 | .tdm8 =>
    let slots := (List.range (slotsOf f)).map fun j => (slice (j * w) ((j + 1) * w) es).map (·.sd0)
    -- a rising edge other than the start of a frame is stray (R331); a falling edge is not a starting edge
    let rises := (ch'.filter fun k => match es[k]? with | some x => x.ws | none => false).length
    ⟨slots, slots, decide (0 < rises)⟩

/-- The window of the frame whose expected start is `ex` (R330). The spec does not say whether its opening and close are brought to the
resolution tQ; the model compares an edge with their exact values (R349, log 112). -/
def inWindow (ex pm : Time) (t : Nat) : Bool :=
  decide (ex - pm / 50 ≤ (t : Rat)) && decide ((t : Rat) ≤ ex + pm / 50)

/-- Table 8-2: the identity index and the data line of channel `j`; none for a slot the format lacks (R317). -/
def channelWord (c : Memory) (e : Engine) (f : InFmt) (j : Nat) : Option (Nat × Bool) :=
  match f with
  | .i2s | .lj => some (j % 2, decide (2 ≤ j))
  | _ =>
    let s := slotU 0 255 (sysSlot c e.image (0x010 + j))
    if s < slotsOf f then some (s, false) else none

/-- What one decision instant delivers: the four samples with the frame instant, and the faults raised. -/
structure Decision where
  input : Input
  frameInst : Time
  samples : List W24
  unlock : Bool
  faults : List Nat
  goodStart : Option Nat

/-- R330 to R342 at the decision instant `t`: `es` are the rising edges after the start of the frame (or after the close of its window) up
to the start of the next frame or the close of its window. R334 does not place the frame instant of an I2S or TDM frame that has a start and
no rising edge of BCK_IN after it in its span; the model takes it one bit of the measured rate after the start (log 110). -/
def decideFrame (c : Memory) (e : Engine) (es : List BckEdge) (t : Nat) : Decision :=
  let i := e.input
  let f := inFmt e.straps.c
  let lvl := startLevel f
  let w := i.c / slotsOf f
  -- the expected start of the next frame (R330)
  let ex : Time := (match i.start with | some s => (s.t : Rat) | none => i.expect) + i.pm
  let prevWs : Bool := match es.dropLast.getLast? with
    | some x => x.ws
    | none => i.ws
  let next : Option BckEdge := match es.getLast? with
    | some z => if z.t = t ∧ z.ws = lvl ∧ prevWs ≠ lvl ∧ inWindow ex i.pm t then some z else none
    | none => none
  let ws := match es.getLast? with | some z => z.ws | none => i.ws
  let bit : Time := i.pm / (i.c : Rat)
  match i.start with
  | none =>
    -- a missing frame: every word of its span is discarded (R333), every channel holds
    let inst : Time := if f = .lj then i.expect else i.expect + bit
    let err := i.errRun + 1
    let i' := { i with start := next, expect := ex, ws := ws, prevGood := false, errRun := err, lastInst := inst }
    ⟨i', inst, i.hold, decide (3 ≤ err), if 3 ≤ err then [0x28, 0x29] else [0x29], none⟩
  | some s =>
    let wd := wordsOf f w s es next.isSome
    let lnOk := wd.sd0.all fun b => b.length == w
    let present := wd.sd0.all fun b => !b.isEmpty
    let good := next.isSome && es.length == i.c && lnOk && present && !wd.stray
    let samples := (List.range 4).map fun j =>
      match channelWord c e f j with
      | none => 0#24
      | some (k, one) => ((wordSample w (nth [] (if one then wd.sd1 else wd.sd0) k)).getD (nth 0#24 i.hold j))
    let first : Time := match es.head? with | some x => (x.t : Rat) | none => (s.t : Rat) + bit
    let inst : Time := if f = .lj then (s.t : Rat) else first
    let err := if good then 0 else i.errRun + 1
    let per : Time := (match next with | some z => (z.t : Rat) | none => 0) - (s.t : Rat)
    let counts := good && i.prevGood
    let periods := if counts then (per :: i.periods).take 8 else i.periods
    let pm := if counts then (periods.foldl (· + ·) 0) / 8 else i.pm
    let drift := counts && (decide (100 * pm < 99 * i.pref) || decide (101 * i.pref < 100 * pm))
    let un := decide (3 ≤ err) || drift
    let i' := { i with
      start := next, expect := ex, ws := ws, prevGood := good, errRun := err, periods := periods, pm := pm
      hold := samples, lastInst := inst }
    let fl := (if un then [0x28] else []) ++ (if good then [] else [0x29]) ++ (if present then [] else [0x2A])
    ⟨i', inst, samples, un, fl, if good then some s.t else none⟩

/-- The input after an unlock at `t`: a new run is sought from the next starting edge (R342). -/
def Input.unlocked (t : Nat) (i : Input) : Input := { i with locked := false, row := 15, start := none, errRun := 0, runFrom := t + 1 }

end Sys2Proof.Machine
end

