-- ==== Sys2Proof/Machine/Resampler.lean ====
section
/-! DEFINITION. The half-band decimator, the resampler and gIN (13.2 to 13.5, 8.7). -/

namespace Sys2Proof.Machine

/-- 2^32 as an integer: the unit of positions and ratios. -/
def one32i : Int := 4294967296

/-- Pr (13.3). -/
def Rs.pr (r : Rs) : Time := if r.hb2 then 2 * r.pref else r.pref

/-- tFR (R336). -/
def Rs.tfr (r : Rs) : Time := 17 / 16 * r.pref

/-- J_i (R575): delivered instants, extrapolated at spacing Pr beyond them (log 23). -/
def Rs.at (r : Rs) (i : Int) : Time :=
  let hi : Int := (r.count : Int) - 1
  let lo : Int := (r.count : Int) - r.inst.length
  match r.inst.head?, r.inst.getLast? with
  | some a, some z =>
    if hi < i then a + ((i - hi : Int) : Rat) * r.pr
    else if i < lo then z + ((i - lo : Int) : Rat) * r.pr
    else nth 0 r.inst (hi - i).toNat
  | _, _ => r.anchor + (i : Rat) * r.pr

/-- r[i] of channel `ch`; +0 before r[0] and where nothing is held. -/
def Rs.sample (r : Rs) (ch : Nat) (i : Int) : W32 :=
  let hi : Int := (r.count : Int) - 1
  if i < 0 ∨ hi < i then 0#32 else nth 0#32 (nth [] r.hr ch) (hi - i).toNat

/-- R572: one HB2 output from the input samples, newest first. -/
def hb2Out (h : List W24) : W32 :=
  macSum ((List.range 63).filterMap fun n =>
    if n % 2 = 0 ∨ n = 31 then some (h2Coef n, ldx (nth 0#24 h n)) else none)

/-- One input frame enters (R335, R572). -/
def Rs.push (s : List W24) (t : Time) (r : Rs) : Rs :=
  let m := r.samples
  let r := { r with samples := m + 1, lastIn := t }
  if r.hb2 then
    let hin := (List.range 4).map fun c => (nth 0#24 s c :: nth [] r.hin c).take 63
    let r := { r with hin := hin }
    if m % 2 = 1 then
      { r with
        count := r.count + 1
        hr := (List.range 4).map fun c => (hb2Out (nth [] hin c) :: nth [] r.hr c).take 128
        inst := (t :: r.inst).take 128 }
    else r
  else
    { r with
      count := r.count + 1
      hr := (List.range 4).map fun c => (ldx (nth 0#24 s c) :: nth [] r.hr c).take 128
      inst := (t :: r.inst).take 128 }

/-- R577: the position whose instant is `goal` (a strobe plus Tf / 2), its fraction truncated. -/
def Rs.place (goal : Time) (r : Rs) : Rs :=
  let tau := goal - r.tfr
  let hi : Int := (r.count : Int) - 1
  let guess : Int := match r.inst.head? with
    | some a => hi + ((tau - a) / r.pr).floor
    | none => ((tau - r.anchor) / r.pr).floor
  -- the greatest index near the guess whose instant does not lie after tau
  let tries : List Int := (List.range 9).map fun (k : Nat) => guess + 4 - (k : Int)
  let i := (tries.find? fun i => decide (r.at i ≤ tau)).getD (guess - 4)
  let p := max 0 (min (one32i - 1) ((tau - r.at i) / r.pr * (one32i : Rat)).floor)
  { r with psi := i * one32i + p, placed := true }

/-- R575, R578: ε in whole tQ at a position. -/
def Rs.eps (goal : Time) (r : Rs) (psi : Int) : Int :=
  let i := psi / one32i
  let p := psi % one32i
  let th := (r.at i + (p : Rat) / (one32i : Rat) * r.pr + r.tfr).floor
  ((th : Rat) - goal).floor

/-- Fr / FS_INT (R582). -/
def Rs.exact (f : Fam) (r : Rs) : Rat :=
  ((nth 0 table46 r.row : Nat) : Rat) / (if r.hb2 then 2 else 1) / (fsInt f : Rat)

/-- R582: ψN in fixed operation entered at strobe `n0` with position `p0`. -/
def Rs.fixedAt (f : Fam) (r : Rs) (n n0 : Nat) (p0 : Int) : Int :=
  p0 + (((n : Rat) - (n0 : Rat)) * (one32i : Rat) * r.exact f).floor

/-- R578: the slips at one strobe; `last` is the direction of the slip just made. Where the two tests would undo one another for ever, the
repetition of the rule has no end, and the model ends it at the slip that would undo the one just made (log 23). -/
def slipLoop (f : Fam) (n : Nat) (goal : Time) : Nat → Int → Rs → Rs × Bool
  | 0, _, r => (r, false)
  | fuel + 1, last, r =>
    let e := r.eps goal r.psi
    let half := frameT f / 2
    let dir : Int := if half ≤ (e : Rat) then -1 else if (e : Rat) < -half then 1 else 0
    if dir = 0 ∨ dir + last = 0 ∧ last ≠ 0 then (r, false)
    else
      let r' := match r.fixed with
        | some (n0, p) =>
          let n1 := if dir < 0 then n0 + 1 else n0 - 1
          { r with fixed := some (n1, p), psi := r.fixedAt f n n1 p }
        | none => { r with psi := r.psi + dir * r.rho }
      ((slipLoop f n goal fuel dir r').1, true)

/-- More slips than `eps` can call for, each of which moves it by more than half a frame (ρ lies within 1000 ppm of ρnom, R581). -/
def slipsMost (f : Fam) (eps : Int) : Nat := (((eps.natAbs : Nat) : Rat) / (frameT f / 2)).ceil.toNat + 2

/-- ρnom (R580). -/
def Rs.nominal (f : Fam) (r : Rs) : Int := ((one32i : Rat) * frameT f / r.pr + 1 / 2).floor

/-- R581: the loop at one strobe. -/
def Rs.loop (eps : Int) (r : Rs) : Rs :=
  let e := fMul (fItf eps) (ofRat (1 / r.pr))
  let s := fAdd r.acc e
  let d := line [.mac (f32 1 (-12)) e, .mac (f32 1 (-26)) s]
  let n : Int := ((fFtp (fAbs d)).toNat : Nat)
  let n := if (f32Val d).m < 0 then -n else n
  let lim := r.rhoNom / 1000
  if n < -lim then { r with rho := r.rhoNom + lim }
  else if lim < n then { r with rho := r.rhoNom - lim }
  else { r with rho := r.rhoNom - n, acc := s }

/-- The held feed of R344 and R598: `k` more samples. -/
def feedSome : Nat → Rs → Rs
  | 0, r => r
  | k + 1, r =>
    match r.feed with
    | some h => feedSome k (r.push h (r.lastIn + r.pref))
    | none => r

/-- The held feed up to `till`. -/
def feedTo (till : Time) (r : Rs) : Rs := feedSome ((till - r.lastIn) / r.pref).floor.toNat r

/-- R582, R583, R598, R602, R603: what an event does to the resampler at strobe `n`, after that strobe's own advance and slips; `till` is the
instant of the next strobe. -/
def Rs.turn (n : Nat) (till : Time) (r : Rs) : RsTurn → Rs
  | .settled => if r.row < 15 ∧ r.placed then { r with fixed := some (n, r.psi) } else r
  | .settledEnd => { r with fixed := none, acc := 0#32, rho := r.rhoNom }
  | .unlocked h => feedTo till { r with feed := some h }

/-- An event turns the resampler at the strobe of its stamp: at the last one, or at the next where that is due already (R45). -/
def Engine.turn (x : RsTurn) (e : Engine) : Engine :=
  let till := e.strobe.last + frameT e.kettle.fam
  { e with rs := e.rs.map fun r => if e.stamp = e.strobe.n then r.turn e.stamp till x else { r with turns := r.turns ++ [x] } }

/-- The resampler at strobe `n` (instant `t`): placement, advance, slips and loop. The second value says that a first slip occurred. -/
def Rs.strobe (f : Fam) (n : Nat) (t : Time) (r : Rs) : Rs × Bool :=
  let goal := t + frameT f / 2
  let r := feedTo (t + frameT f) r
  if !r.placed then
    let r := r.place goal
    (r.loop (r.eps goal r.psi), false)
  else
    let r := match r.fixed with
      | some (n0, p0) => { r with psi := r.fixedAt f n n0 p0 }
      | none => { r with psi := r.psi + r.rho }
    let (r, slip) := slipLoop f n goal (slipsMost f (r.eps goal r.psi)) 0 r
    let r := if r.fixed.isSome ∨ r.feed.isSome then r else r.loop (r.eps goal r.psi)
    ({ r with slipped := r.slipped || slip }, slip && !r.slipped)

/-- What waits for strobe `n` takes effect, after that strobe's advance and slips (R602, R603). -/
def Rs.takeTurns (f : Fam) (n : Nat) (t : Time) (r : Rs) : Rs :=
  { r.turns.foldl (Rs.turn n (t + frameT f)) r with turns := [] }

/-- R574: the word gIN × y of one channel at the position in force. -/
def Rs.word (g : W32) (r : Rs) (ch : Nat) : W32 :=
  let i := r.psi / one32i
  let p : W32 := BitVec.ofInt 32 (r.psi % one32i)
  let q := phsIndex p 8
  let w := phsFrac p 8
  let y := macSum ((List.range 64).map fun k =>
    let a := protoH (256 * k + q)
    (line [.val a, .mac w (protoH (256 * k + q + 1)), .msu w a], r.sample ch (i - (k : Int))))
  fMul g y

/-- R580, R581: ρnom, ρinit and S in the family `f`. -/
def Rs.ratios (f : Fam) (r : Rs) : Rs :=
  let nom := r.nominal f
  let ini := ((one32i : Rat) * frameT f / r.pm2 + 1 / 2).floor
  { r with rhoNom := nom, rho := ini, acc := ofRat (((nom - ini : Int) : Rat) / 64) }

/-- R600, R570, R580: the resampler at a lock stamped `since`; `anchor` is the instant foreseen for the first frame. -/
def Rs.init (f : Fam) (since row : Nat) (pref pm anchor : Time) : Rs :=
  let hb := decide (pref < (10204 : Rat) * 393216 / 1000000)
  let r : Rs :=
    { hb2 := hb, pref := pref, row := row, samples := 0, hin := [[], [], [], []], count := 0, hr := [[], [], [], []], inst := []
      pm2 := if hb then 2 * pm else pm, anchor := if hb then anchor + pref else anchor, lastIn := anchor, placed := false, psi := 0
      rho := 0, rhoNom := 0, acc := 0, fixed := none, slipped := false, feed := none, since := since, turns := [] }
  r.ratios f

/-- R599 at tRT; a settled report or its end that waits for the same strobe has no further effect (R604). -/
def Rs.retune (f : Fam) (t : Time) (r : Rs) : Rs :=
  let r := { r with fixed := none, acc := 0, turns := r.turns.filter fun x => x != RsTurn.settled && x != RsTurn.settledEnd }
  let n := r.nominal f
  { r with rhoNom := n, rho := n }.place (t + frameT f / 2)

/-- R of R343. -/
def ginFrames (f : Fam) : Nat := framesMs f 5

/-- A lock declared before the family was decided acts in the family decided (R328, R343, R580). -/
def inputFamily (f : Fam) (e : Engine) : Engine :=
  let fit (x : Slide) : Slide := { x with n := ginFrames f }
  { e with rs := e.rs.map (Rs.ratios f), gin := { e.gin with slide := fit e.gin.slide, next := e.gin.next.map fit } }

/-- gIN in frame `f`. -/
def ginAt (e : Engine) (f : Nat) : Rat :=
  match e.gin.next with
  | some s => if s.start ≤ f + 1 then s.at f else e.gin.slide.at f
  | none => e.gin.slide.at f

/-- R343, R354: the mute of an unlock stamped now. R354 names an unmute ramp that runs; where the mute of an earlier unlock still runs, or
gIN stands at 0 before U, no rule says how gIN goes on, and the model goes on from the gIN of frame N + 4 in the same way (log 111). -/
def ginMute (e : Engine) : Engine :=
  let n := e.stamp
  let r := ginFrames e.kettle.fam
  let v := ginAt e (n + 4)
  { e with gin := { e.gin with slide := ⟨v, 0, n + 6, r⟩, next := none, z := some (n + 5 + (v * (r : Rat)).ceil.toNat) } }

/-- R345, R346, R353: the unmute of a lock stamped now begins in frame U; a mute that runs ends first. -/
def ginUnmute (e : Engine) : Engine :=
  let u := match e.gin.z with
    | some z => max e.target (z + 1)
    | none => e.target
  { e with gin := { e.gin with next := some ⟨0, 1, u + 1, ginFrames e.kettle.fam⟩ } }

end Sys2Proof.Machine
end

