-- ==== Sys2Proof/Machine/Kettle.lean ====
section
/-! DEFINITION. The kettle (04): crystal, loop start, lock and unlock, relock, word-clock tracking, and what the outputs, the counters and
the resampler do at tREL, tRT, tLOCK and the unmute start. -/

namespace Sys2Proof.Machine

/-- A map of the kettle. -/
def Engine.onKettle (f : Kettle → Kettle) (e : Engine) : Engine := { e with kettle := f e.kettle }

/-- A map of every output channel. -/
def Engine.onChans (f : Chan → Chan) (e : Engine) : Engine := { e with out := { e.out with chans := e.out.chans.map f } }

/-- Channel `i` of the modulator mapped. -/
def Engine.onChan (i : Nat) (f : Chan → Chan) (e : Engine) : Engine := { e with out := { e.out with chans := updAt f i e.out.chans } }

/-- Channel `i`. -/
def Engine.chan (e : Engine) (i : Nat) : Chan := nth Chan.zero e.out.chans i

/-- R665: a gain that turns towards `v` at strobe `a` over `n` frames. -/
def Slide.gain (s : Slide) (v : Rat) (a n : Nat) : Slide := ⟨s.at (a - 1), v, a + 1, n⟩

/-- N2 of §15.7. -/
def n2 (f : Fam) : Nat := framesMs f 2

/-- N5 of §15.7. -/
def n5 (f : Fam) : Nat := framesMs f 5

/-- The first strobe at or after an event that completes at `t`, which follows the last strobe. -/
def Engine.strobeAfter (e : Engine) (t : Nat) : Nat :=
  if e.strobe.started then (if (t : Rat) ≤ e.strobe.last then e.strobe.n else e.strobe.n + 1) else 0

/-- The crystal serves and no loss of it has been declared. -/
def Engine.clocked (e : Engine) : Bool := e.kettle.crystal && e.kettle.down.isNone

/-! ## The strobe count (R21, R145) -/

/-- The strobe count moves on (R21, R145). -/
def advanceStrobe (t : Time) (e : Engine) : Engine :=
  let k := e.kettle
  let s := e.strobe
  let e := { e with strobe := ⟨true, if s.started then s.n + 1 else 0, t, 0⟩, now := max e.now t }
  if k.carrier then
    if k.handback then e.onKettle fun k => { k with carrier := false, handback := false, carrierK := 0 }
    else e.onKettle fun k => { k with carrierK := k.carrierK + 1 }
  else e

/-! ## Reference and tracking (R135 to R142, R149, R158) -/

/-- XFOL or WCLK. -/
def follows (e : Engine) : Bool := policy e == .xfol || policy e == .wclk

/-- The family of the locked input. -/
def inputFam (e : Engine) : Option Fam := if e.input.locked then rowFam e.input.row else none

/-- R139: the input rate 1 / Pm lies within 1000 ppm of its nominal rate 1 / P_ref. -/
def rateInRange (i : Input) : Bool :=
  decide (999 * i.pm ≤ 1000 * i.pref) && decide (1000 * i.pref ≤ 1001 * i.pm)

/-- The input is locked at a rate of the family in force. -/
def inputOurs (e : Engine) : Bool := inputFam e == some e.kettle.fam

/-- R140, R583: the settled state ends. -/
def settledEnd (e : Engine) : Engine :=
  if e.kettle.settled then
    (e.onKettle fun k => { k with settled := false }).turn .settledEnd
  else e

/-- R141, R142, R149: what tracking does once the lock state, the rate or the family has changed; before strobe 0 there is no report
(R328). -/
def trackUpdate (e : Engine) : Engine :=
  if policy e ≠ .wclk ∨ ¬ e.strobe.started then e
  else
    let out := inputOurs e && !rateInRange e.input
    let raised := e.kettle.refRaised
    let e := (e.onKettle fun k => { k with refRaised := k.refRaised || out }).raiseIf (out && !raised) 0x03
    let now : Track := if !e.kettle.locked then .off else if inputOurs e && rateInRange e.input then .steering else .frozen
    let e := e.onKettle fun k => { k with track := now, phAt := if now = .steering then k.phAt else none }
    if now = .steering then e else settledEnd e

/-- The bounds of the correction: the timebase stays within 1000 ppm of nominal (R139). -/
def steerClamp (x : Int) : Int := max (-999000999) (min 1001001001 x)

/-- The deviation of Pm from P_ref in units of 10^-12: frames grow with Pm. -/
def measuredRate (i : Input) : Int := ((i.pm / i.pref - 1) * 1000000000000).floor

/-- R139: the mean of the measured deviation since the steering began; Pm itself stands on a grid of 1/8 tQ. The weight is the model's (log
16). -/
def meanRate (i : Input) (k : Kettle) : Int :=
  if k.phAt.isNone then measuredRate i else k.rate + (measuredRate i - k.rate) / 256

/-- R139: how far the correction may move in one input frame at 50 ppm/s. -/
def slewMost (i : Input) : Nat := (50000000 * i.pm / 393216000).floor.toNat

/-- R139: one step towards the goal. It never passes the goal nor the slew limit and covers at least half of what they leave; how much more is
a free value (log 16), so the correction comes to stand at the goal whatever it is. -/
def steerToward (goal : Int) (most free : Nat) (x : Int) : Int :=
  let m := min (goal - x).natAbs most
  let step : Int := ((m - free % (m / 2 + 1) : Nat) : Int)
  if x ≤ goal then x + step else x - step

/-- The grid of R140 in parts of a frame: the starts of the frames of row `row` of Table 4-6 fall on whole parts. -/
def gridParts (row : Nat) : Nat := if row = 8 then 4 else if row = 6 ∨ row = 9 ∨ row = 14 then 2 else 1

/-- One part of the frame grid. -/
def gridPart (e : Engine) : Time := loopFrame e.kettle / (gridParts e.input.row : Rat)

/-- The phase of an instant against the frame grid (R140). -/
def gridPhase (e : Engine) (s : Time) : Time :=
  let d := s - e.strobe.last
  d - ((d / gridPart e).floor : Rat) * gridPart e

/-- How far phase `b` lies after phase `a` on the grid, the nearer way round. -/
def phaseOff (e : Engine) (a b : Time) : Time := (b - a) - (((b - a) / gridPart e + 1 / 2).floor : Rat) * gridPart e

/-- R140: an offset lies within ±1 µs. -/
def within1us (d : Time) : Bool := decide (-usT 1 ≤ d) && decide (d ≤ usT 1)

/-- R139: the correction at which the timebase is the multiplier of Table 4-6 times the measured rate of WS_IN. The phase, which sums up what the
correction has missed so far, draws it back with a time constant of 80 ms, so that the average is exact over any length (log 16). -/
def steerGoal (off : Time) (k : Kettle) : Int := steerClamp (k.rate + (off * 1000000000000 / msT 80).floor)

/-- R140: the frequency error is below 1 ppm. -/
def rateNear (k : Kettle) : Bool := decide ((k.steer - k.rate).natAbs < 1000000)

/-- R139, R140, R347: what the start `s` of one more good frame does to the tracking. The spec does not say from what the ±1 µs of R140 is
measured; the model takes the phase at the start of the run, not the zero of the grid (log 99). The settled state ends with the first frame
at which either condition of R140 fails. -/
def steerStep (s : Time) (e : Engine) : Engine :=
  if e.kettle.track = .steering then
    let (i, e) := e.useFree
    let p := gridPhase e s
    let kept := e.kettle.phAt.isSome && within1us (phaseOff e e.kettle.phRef p)
    let rate := meanRate e.input e.kettle
    let e := e.onKettle fun k => if kept then { k with rate := rate } else { k with rate := rate, phRef := p, phAt := some s }
    let goal := steerGoal (phaseOff e e.kettle.phRef p) e.kettle
    let e := e.onKettle fun k => { k with steer := steerToward goal (slewMost e.input) (Config.wclkStep i) k.steer }
    if kept ∧ rateNear e.kettle then e else settledEnd e
  else e

/-- R158: an unlock of the input between tLOCK and the end of a relock leaves the nominal fraction of the new family. -/
def steerAtUnlock (e : Engine) : Engine :=
  let late : Bool := match e.kettle.relock with
    | .settle => true
    | .unmute _ => true
    | _ => false
  if late ∧ ¬ e.kettle.recovery ∧ policy e = .wclk then e.onKettle fun k => { k with steer := 0 } else e

/-- R137, R328: the strobe since which the input has reported lock in the other family; before strobe 0 there is no report. -/
def otherUpdate (e : Engine) : Engine :=
  let on := follows e && e.strobe.started && inputFam e == some e.kettle.fam.other
  e.onKettle fun k => { k with other := if on then some (k.other.getD e.strobe.last) else none }

/-! ## Crystal (R128, R151, R152, R154) -/

/-- R128, R129: the crystal monitor works on while the engine proceeds to an internal reset (R152). -/
def crystalValidOp (t : Nat) (e : Engine) : Engine :=
  if e.kettle.crystal then e else (e.at t).onKettle fun k => { k with crystal := true, crystalAt := (t : Rat) }

/-- R152, R683: gates and clock pins low; ramps, trims and calibrations abandoned. The pending requests of R884 to R888 go with the reset, not
before it: status frames may still report them (R154). -/
def outputsDown (e : Engine) : Engine :=
  let e := e.onChans fun x => { Chan.zero with request := x.request }
  { e with out := { e.out with clocks := false, words := List.replicate 4 0 } }

/-- R152: the engine proceeds to its internal reset. -/
def kettleDown (t : Nat) (e : Engine) : Engine :=
  let e := (outputsDown (e.at t)).raise 0x01
  e.onKettle fun k =>
    { k with down := some (t : Rat), locked := false, loopAt := none, relock := .none, track := .off, settled := false }

/-- The crystal is lost: neither the loop nor the carrier paces until the reset (R43, R151), even if the crystal becomes valid again before
it. -/
def crystalGone (e : Engine) : Engine := e.onKettle fun k => { k with crystal := false, carrier := false, firstLock := false }

/-- CRYSTAL_LOSS (R151, R160); a loss in the millisecond after LOOP_LOCK_TIMEOUT stops the carrier, and that millisecond runs on (log 49). -/
def crystalLossOp (t : Nat) (e : Engine) : Engine :=
  if e.clocked then crystalGone (kettleDown t e)
  else if e.kettle.crystal then crystalGone ((e.at t).raise 0x01)
  else e

/-- CRYSTAL_START_TIMEOUT (Table 5-5). -/
def crystalStartOp (t : Nat) (e : Engine) : Engine :=
  if e.kettle.crystal ∨ e.kettle.startRaised ∨ e.kettle.down.isSome ∨ (t : Rat) < msT 20 then e
  else ((e.at t).onKettle fun k => { k with startRaised := true }).raise 0x01

/-- LOOP_LOCK_TIMEOUT (R154). -/
def loopTimeoutOp (t : Nat) (e : Engine) : Engine :=
  match e.kettle.loopAt with
  | some s => if e.clocked ∧ ¬ e.kettle.locked ∧ s + msT 20 < (t : Rat) + 1 then kettleDown t e else e
  | none => e

/-! ## Loop start (R134, R136) -/

/-- The family in which B2 starts the loop at `t`, once it is decided. -/
def startFam (t : Nat) (e : Engine) : Option Fam :=
  match policy e with
  | .xf48 => some .f48
  | .xf44 => some .f44
  | _ =>
    match inputFam e with
    | some f => some f
    | none => if e.kettle.crystalAt + msT 12 < (t : Rat) + 1 then some .f48 else none

/-- LOOP_START. -/
def loopStartOp (t : Nat) (e : Engine) : Engine :=
  if e.clocked ∧ e.steep.b1 ∧ ¬ e.kettle.firstLock ∧ e.kettle.loopAt.isNone then
    match startFam t e with
    | some f => inputFamily f ((e.at t).onKettle fun k => { k with fam := f, loopAt := some (t : Rat) })
    | none => e
  else e

/-! ## tRT (R49, R146 to R149, R153, R650, R661, R669, R678) -/

/-- The output channels at tRT; `gone` says that an unlock and not a relock began it. The 50 % duty of an unlock stays until coarse mode ends
(R683), whatever follows. -/
def chanAtRT (gone : Bool) (c : Chan) : Chan :=
  let fineBefore := !c.coarse && !c.opened
  { c with
    coarse := true
    fixed := gone || c.fixed
    fine := false
    swap := false
    cycle := false
    both := false
    pair := false
    trim := none
    trimOver := false
    e1 := if fineBefore then 0 else c.e1
    e2 := if fineBefore then 0 else c.e2
    gQ := ⟨1, 1, 0, 1⟩ }

/-- The lines of a new family have still to pass. -/
def chanLinesLost (c : Chan) : Chan := { c with lines := c.lines.map fun l => { l with passed := false } }

/-- R49: the output FIFO is emptied. -/
def emptyFifo (e : Engine) : Engine := { e with fifo := { e.fifo with frames := [], missRun := 0 } }

/-- Everything that acts at the instant tRT, whose family is `f` and whose carrier origin is `o`. -/
def atRT (c : Memory) (gone : Bool) (f : Fam) (t o : Time) (e : Engine) : Engine :=
  let old := e.kettle.fam
  let e := e.onKettle fun k =>
    { k with
      fam := f, locked := false, tRT := t, loopAt := some t, carrier := true, origin := o, carrierK := 0, handback := false, clamp := true, phAt := none
      relock := .retune, recovery := gone && (k.recovery || k.relock == .none), track := .off, steer := 0, settled := false }
  let e := emptyFifo (e.onChans fun x => chanLinesLost (chanAtRT gone x))
  -- after an unlock the carrier places ticks of its own before its first strobe (R144)
  let e := { e with
    out := { e.out with clocks := false, held := true }
    strobe := { e.strobe with tick := if gone then 1 else e.strobe.tick } }
  let e := (e.withCond fun k => { k with fenceOn := false })
  let e := if e.served ∧ e.mode ≠ .load then tempoRelock c old e else e
  if gone then e.onKettle fun k => { k with place := true }
  else { e with rs := e.rs.map fun r => r.retune f t, rsOld := e.rsOld.map fun r => r.retune f t }

/-- RETUNE_START: the first strobe at or after tREL + 2 ms (Table 4-7). -/
def retuneStartOp (c : Memory) (e : Engine) : Engine :=
  match e.kettle.relock with
  | .mute f =>
    if e.clocked ∧ e.strobe.started ∧ e.kettle.tRel + msT 2 ≤ e.strobe.last then atRT c false f e.strobe.last e.strobe.last e else e
  | _ => e

/-- R147: the bounds of the timebase between tRT and tLOCK, in Hz. -/
def clampLow : Nat := 1350000000

/-- See `clampLow`. -/
def clampHigh : Nat := 1600000000

/-- The timebase in Hz: nominal (Table 4-1) with the correction of R139, and from tRT to tLOCK a free value within the bounds of R147 (log
97). -/
def timebase (free : Nat) (k : Kettle) : Rat :=
  if k.clamp then ((clampLow + Config.clampHz free % (clampHigh - clampLow + 1) : Nat) : Rat)
  else 393216000 / loopFrame k * 16000

/-- The duration of one switching period, 2000 periods of the timebase (R642). -/
def switchTime (free : Nat) (k : Kettle) : Time := 2000 * 393216000 / timebase free k

/-- The first crystal edge at or after `t` (R144). The spec does not place t0 on the crystal's grid; the model takes the edges at whole crystal
periods from t0 (log 73). -/
def crystalEdge (t : Nat) : Time := ((16 * ((t + 15) / 16) : Nat) : Rat)

/-- The crossfade and the restore ramp, where the frame in which they start is muted by what begins at strobe `a`, wait for the next unmute
(R205). Frames from there on that wait in the output FIFO carry passthrough alone (log 38). -/
def xAtWait (a : Nat) (e : Engine) : Engine :=
  match e.steep.xAt with
  | some x =>
    if a ≤ x then
      { e with
        steep := { e.steep with xAt := none }
        fifo := { e.fifo with frames := e.fifo.frames.map fun r => if x ≤ r.n then { r with samples := r.pass } else r } }
    else e
  | none => e

/-- UNLOCK_DECLARED (R130, R153, R159, R940). -/
def unlockOp (c : Memory) (t : Nat) (e : Engine) : Engine :=
  if e.clocked ∧ e.kettle.locked then
    let e := (e.at t).raise 0x01
    let f := match e.kettle.relock with
      | .mute g => g
      | _ => e.kettle.fam
    let e := atRT c true f (t : Rat) (crystalEdge t) e
    xAtWait e.strobe.n { e with out := { e.out with gK := ⟨0, 0, 0, 1⟩ } }
  else e

/-! ## tREL (R137, R146, R155 to R157) -/

/-- RELOCK_ACCEPTED. -/
def relockAcceptedOp (t : Nat) (e : Engine) : Engine :=
  match e.kettle.other with
  | some s =>
    if e.clocked ∧ follows e ∧ e.kettle.relock = .none ∧ e.kettle.locked ∧ inputFam e = some e.kettle.fam.other ∧
        s + msT 50 < (t : Rat) + 1 then
      let a := e.strobeAfter t
      let e := ((e.at t).onKettle fun k => { k with relock := .mute k.fam.other, tRel := (t : Rat), recovery := false }).raise 0x02
      xAtWait a { e with out := { e.out with gK := e.out.gK.gain 0 a (n2 e.kettle.fam) } }
    else e
  | none => e

/-! ## tLOCK (R130, R131, R133, R145, R669) -/

/-- The first strobe at or after tLOCK + 5 ms, foreseen at tLOCK (R205): the strobes run on from the handback. -/
def unmuteStrobe (e : Engine) : Nat :=
  match nextStrobe e with
  | some h => e.strobe.n + 1 + (((e.kettle.tLock + msT 5 - h) / frameT e.kettle.fam).ceil).toNat
  | none => e.strobe.n + 1

/-- The crossfade and the restore ramp have not started. -/
def xAtAhead (e : Engine) : Bool :=
  match e.steep.xAt with
  | some x => decide (e.strobe.n < x)
  | none => true

/-- R194, R205: the restore ramp starts with frame `x`. -/
def restoreFrom (x : Nat) (e : Engine) : Engine :=
  let m := mFrames e.kettle.fam
  let g := gpDb e
  let fix (r : MixRec) : MixRec := { r with vol := { r.vol with v0 := g, start := x + 1, n := m } }
  let e := { e with steep := { e.steep with xAt := some x, xFam := e.kettle.fam } }
  if e.steep.restore then { e with mix := fix e.mix, mixLive := fix e.mixLive, mixChg := e.mixChg.map fun p => (p.1, fix p.2) } else e

/-- The calibration of both lines of a channel begins (R657, R669); `pair` for that of R669. -/
def chanCalibrate (pair : Bool) (c : Chan) : Chan := { c with cycle := true, both := true, pair := pair, activeOk := false }

/-- The modulating channel has been calibrated in B6 or B7. -/
def calibratedChan (e : Engine) (i : Nat) : Bool := isModulator e.straps.a i && (if i < 2 then e.steep.b6 else e.steep.b7)

/-- LOCK_DECLARED. -/
def lockOp (t : Nat) (e : Engine) : Engine :=
  if e.clocked ∧ e.kettle.loopAt.isSome ∧ ¬ e.kettle.locked then
    let again := e.kettle.firstLock
    let e := (e.at t).onKettle fun k =>
      { k with
        locked := true, firstLock := true, tLock := (t : Rat), loopAt := none, clamp := false
        handback := again, relock := if again then .settle else .none }
    let e := { e with out := { e.out with clocks := decide (e.mode ≠ .load) } }
    let e := if again then (List.range 4).foldl (fun e i => if calibratedChan e i then e.onChan i (chanCalibrate true) else e) e else e
    let e := if again ∧ e.steep.f.isSome ∧ xAtAhead e then restoreFrom (unmuteStrobe e) e else e
    otherUpdate (trackUpdate e)
  else e

/-! ## The unmute (R49, R146, R669, R679) -/

/-- UNMUTE_START: the first strobe at or after tLOCK + 5 ms. -/
def unmuteStartOp (e : Engine) : Engine :=
  if e.kettle.relock = .settle ∧ e.kettle.locked ∧ e.strobe.started ∧ ¬ e.kettle.carrier ∧ e.kettle.tLock + msT 5 ≤ e.strobe.last then
    let a := e.strobe.n
    let f := e.kettle.fam
    let e := e.onKettle fun k => { k with relock := .unmute (e.strobe.last + msT 2) }
    let e := { e with out := { e.out with gK := e.out.gK.gain 1 a (n2 f) } }
    (List.range 4).foldl (fun e i =>
      let x := e.chan i
      if ¬ calibratedChan e i then e
      else if x.lines.any (·.passed) then
        if x.gD.v1 = 0 ∧ ¬ x.failEp then e.onChan i fun x => { x with gD := x.gD.gain 1 a (n5 f) } else e
      else
        (e.onChan i fun x => { x with gD := ⟨0, 0, 0, 1⟩, failEp := true }).raiseIf (!x.failEp) 0x21) e
  else e

/-- At a strobe: the relock is complete 2 ms after its unmute start (Table 4-7, R15), and R155 counts a new 50 ms from that instant. -/
def relockStep (e : Engine) : Engine :=
  match e.kettle.relock with
  | .unmute fin =>
    if fin ≤ e.strobe.last then e.onKettle fun k =>
      { k with relock := .none, recovery := false, other := if k.recovery then k.other else k.other.map (fun _ => fin) }
    else e
  | _ => e

/-! ## Settled tracking (R140, R582, R583, R602, R604) -/

/-- R140: the frequency error is below 1 ppm and the phase of WS_IN has stayed within ±1 µs for 1 s; the instant of the row lies less than
one frame after the latest instant that the state holds. -/
def settledDue (e : Engine) : Bool :=
  match e.kettle.phAt with
  | some s => rateNear e.kettle && decide (s + msT 1000 ≤ e.now + frameT e.kettle.fam)
  | none => false

/-- TRACKING_SETTLED. -/
def trackingSettledOp (e : Engine) : Engine :=
  if policy e = .wclk ∧ e.kettle.track = .steering ∧ ¬ e.kettle.settled ∧ settledDue e then
    (e.onKettle fun k => { k with settled := true }).turn .settled
  else e

/-- TRACKING_SETTLED_END. -/
def trackingEndOp (e : Engine) : Engine := settledEnd e

/-! ## The input's lock and frames (R325 to R346, R598, R600) -/

/-- INPUT_LOCK: the run that gives lock, or raises INPUT_RATE (R326). The resampler is placed at the strobe of the lock's stamp (R577): the
last one, or the next where that is due already (R45). -/
def inputLockOp (edges : List BckEdge) (e : Engine) : Engine :=
  if e.kettle.crystal ∧ e.steep.b1 ∧ e.mode ≠ .load ∧ ¬ e.input.locked ∧ edges.all (fun x => decide (e.input.runFrom ≤ x.t)) then
    let f := inFmt e.straps.c
    match runOf f edges with
    | none => e
    | some r =>
      let e := e.at r.last.t
      if rateOk f r.c r.pm then
        let e := { e with input := e.input.lockAt r }.onKettle fun k => { k with refRaised := false }
        let bit : Time := if f = .lj then 0 else r.pm / (r.c : Rat)
        let anchor : Time := (r.last.t : Rat) + bit
        let new := Rs.init e.kettle.fam e.stamp e.input.row e.input.pref r.pm anchor
        let due := decide (e.strobe.n < e.stamp)
        let new := if e.strobe.started ∧ ¬ due then
            let g := e.strobe.last + frameT e.kettle.fam / 2
            let p := new.place g
            p.loop (p.eps g p.psi)
          else new
        let old := match e.gin.z with
          | some z => if due ∨ e.target ≤ z then e.rs else none
          | none => if due then e.rs else none
        otherUpdate (trackUpdate (ginUnmute { e with rs := some new, rsOld := old }))
      else
        let raised := e.input.rateRaised
        ({ e with input := { e.input with rateRaised := true, runFrom := r.last.t } }).raiseIf (!raised) 0x2B
  else e

/-- DECISION_INSTANT: the frame is delivered and judged (R330 to R343). -/
def decisionOp (c : Memory) (edges : List BckEdge) (t : Nat) (e : Engine) : Engine :=
  if e.kettle.crystal ∧ e.input.locked then
    let d := decideFrame c e edges t
    let rs := e.rs.map fun r : Rs => r.push d.samples d.frameInst
    let e := { e with input := d.input, rs := rs, now := max e.now (t : Rat) }
    let e := match d.goodStart with
      | some s => if d.unlock then e else steerStep (s : Rat) e
      | none => e
    if d.unlock then
      let e := { e with input := e.input.unlocked t }.turn (.unlocked d.samples)
      otherUpdate (steerAtUnlock (trackUpdate (ginMute (e.raiseAll d.faults))))
    else trackUpdate (e.raiseAll d.faults)
  else e

end Sys2Proof.Machine
end

