-- ==== Sys2Proof/Machine/Voice.lean ====
section
/-! DEFINITION. One frame of a voice (11): queue entries, sources, envelopes, LFOs, matrix, pitch, oscillators, filters, amplitude and
pan, in the order of Table 11-1. -/

namespace Sys2Proof.Machine

/-- What a frame of a voice reads beside its own state: caddy, image, family, part record in force, frame number, tempo in force in tenths of
a beat per minute, the division codes with a beat-grid event in the frame, and the macros' values. -/
structure VoiceEnv where
  c : Memory
  im : Image
  fam : Fam
  part : PartRec
  frame : Nat
  tempo : Nat
  grid : List Nat
  macros : List W32

/-- C12 of R468. -/
def c12 : W32 := q32 1 12

/-- Kf of R468. -/
def kf (f : Fam) : W32 := fxRound (fxLog2 ((440 : Rat) / (fsInt f : Rat)) - fxOfRat (69 / 12))

/-- R468: RATE(P). -/
def rateFn (f : Fam) (p : W32) : W32 := fE2 (line [.val (kf f), .mac p c12])

/-- R463: N(T) for an exact duration in seconds. -/
def countN (f : Fam) (t : Rat) : Nat := max 1 (framesOf f t)

/-- R463: N0(T). -/
def countN0 (f : Fam) (t : Rat) : Nat := framesOf f t

/-- The patch's slot `s`. -/
def VoiceEnv.slot (x : VoiceEnv) (v : Voice) (s : Nat) : W32 := patchSlot x.c v.patch s

/-- An F32 slot of the voice's patch, limited to its range. -/
def VoiceEnv.f (x : VoiceEnv) (v : Voice) (s : Nat) (lo hi : W32) : W32 := slotF lo hi (x.slot v s)

/-- The upper end of a start phase, 1 - 2^-23. -/
def phaseTop : W32 := f32 (2 ^ 23 - 1) (-23)

/-! ## Noise (R479, R480) -/

/-- One advance: the generator after it and its value. -/
def noiseStep (g : List W32) : List W32 × W32 :=
  let x := nth 0#32 g 31 + nth 0#32 g 0
  (g.drop 1 ++ [x], line [.val (q32 (-1)), .mac (q32 2) (phsFrac x 0)])

/-- R479: the 55 words of slot `v` at t0. -/
def noiseInit (v : Nat) : List W32 :=
  (List.range 55).map fun j => BitVec.ofNat 32 ((j + 1) * 0x6C078965 + v * 0x9E3779B9)

/-! ## Curves (R500) -/

/-- R500: a curve with breakpoints from slot `base`, limited to `lo` to 1. -/
def curve (x : VoiceEnv) (v : Voice) (base : Nat) (lo : W32) (n : Nat) : W32 :=
  let i := if n = 127 then 128 else n
  let j := min (i / 16) 7
  let t := q32 ((i - 16 * j : Nat) : Int) 16
  let y (k : Nat) : W32 := x.f v (base + k) lo one32
  fClamp lo one32 (line [.val (y j), .mac t (y (j + 1)), .msu t (y j)])

/-- The velocity curve. -/
def velCurve (x : VoiceEnv) (v : Voice) (n : Nat) : W32 := curve x v 0x1D0 0#32 n

/-- The key curve. -/
def keyCurve (x : VoiceEnv) (v : Voice) (n : Nat) : W32 := curve x v 0x1E0 (q32 (-1)) n

/-! ## Envelopes (R488 to R492) -/

/-- The stage that follows. -/
def EnvStage.succ : EnvStage → EnvStage
  | .delay => .attack
  | .attack => .hold
  | .hold => .decay
  | .decay => .sustain
  | .sustain => .sustain
  | .release => .done
  | .done => .done

/-- The envelope's slots from base `b`: delay, attack, curve, hold, decay, sustain, release. -/
def envSlot (x : VoiceEnv) (v : Voice) (b o : Nat) : W32 :=
  if o = 2 then x.f v (b + 2) (q32 (-1)) one32
  else if o = 5 then x.f v (b + 5) 0#32 one32
  else if o = 4 ∨ o = 6 then x.f v (b + o) 0#32 (q32 60)
  else x.f v (b + o) 0#32 (q32 20)

/-- The count of a stage (R488, R490), its time scaled by `s`. -/
def stageCount (x : VoiceEnv) (v : Voice) (b : Nat) (s : W32) : EnvStage → Nat
  | .delay => countN0 x.fam (f32Rat (envSlot x v b 0))
  | .attack => countN x.fam (f32Rat (envSlot x v b 1) * f32Rat s)
  | .hold => countN0 x.fam (f32Rat (envSlot x v b 3) * f32Rat s)
  | .decay => countN x.fam (f32Rat (envSlot x v b 4) * f32Rat s)
  | .release => countN x.fam (f32Rat (envSlot x v b 6) * f32Rat s)
  | _ => 1

/-- The level in frame `k` of a stage of `n` frames (R489, R490). -/
def stageLevel (x : VoiceEnv) (v : Voice) (b : Nat) (e : Env) (k n : Nat) : W32 :=
  match e.stage with
  | .delay => e.e0
  | .attack =>
    let t := if k < n then fMul (fItf k) (q32 1 n) else one32
    let u := line [.val t, .msu t t]
    let c := line [.val t, .mac (envSlot x v b 2) u]
    line [.val e.e0, .val c, .msu c e.e0]
  | .hold => one32
  | .decay =>
    let s := envSlot x v b 5
    if k < n then
      let q := fE2 (fMul (fItf k) (q32 (-16) n))
      line [.val s, .val q, .msu s q]
    else s
  | .sustain => envSlot x v b 5
  | .release =>
    if k < n then fE2 (line [.val e.ell, .mac (fItf k) (q32 (-16) n)]) else 0#32
  | .done => 0#32

/-- One frame of an envelope: stages whose count is 0 take no frame. -/
def envFrame (x : VoiceEnv) (v : Voice) (b : Nat) (s : W32) : Nat → Env → Env
  | 0, e => e
  | fuel + 1, e =>
    match e.stage with
    | .done => { e with level := 0#32 }
    | .sustain => { e with level := stageLevel x v b e 0 0 }
    | st =>
      if st = .release ∧ e.k = 0 ∧ (f32Val e.level).m = 0 then { e with stage := .done, level := 0#32 }
      else
        let e := if e.k = 0 then
            { e with count := stageCount x v b s st, ell := if st = .release then fL2 e.level else e.ell }
          else e
        if e.count = 0 then envFrame x v b s fuel { e with stage := st.succ, k := 0 }
        else
          let k := e.k + 1
          let lv := stageLevel x v b e k e.count
          if k = e.count then { e with stage := st.succ, k := 0, level := lv } else { e with k := k, level := lv }

/-- A new envelope (e0 is +0). -/
def Env.init : Env := ⟨.delay, 0, 0, 0#32, 0#32, 0#32⟩

/-- R490: RELEASE on one envelope. -/
def Env.release (e : Env) : Env :=
  if e.stage = .release ∨ e.stage = .done then e else { e with stage := .release, k := 0 }

/-- R491: RETRIG with its flag set on one envelope. -/
def Env.restart (e : Env) : Env := { e with stage := .delay, k := 0, e0 := e.level }

/-- The envelope is in its release stage or past it. -/
def Env.releasing (e : Env) : Bool := e.stage == .release || e.stage == .done

/-! ## Queue entries (R392, Table 10-1) -/

/-- R417: glide is on for a note of `v` whose entry applies in this frame. -/
def glideOn (x : VoiceEnv) (v : Voice) : Bool :=
  match x.part.porta with
  | some b => b
  | none => slotB (x.slot v 0x007)

/-- R470: the glide that an entry with source pitch `src` starts. -/
def glideStart (x : VoiceEnv) (v : Voice) (src : Option Nat) : Voice :=
  let tg := x.f v 0x008 0#32 (q32 10)
  match src with
  | some q =>
    if glideOn x v = true ∧ 0 < (f32Val tg).m then
      let n := countN x.fam (f32Rat tg)
      let d : Int := (q : Int) - v.note
      { v with gDelta := d, gN := n, gK := 0, gStep := ofRat ((d : Rat) / (n : Rat)) }
    else { v with gN := 0, gK := 0 }
  | none => { v with gN := 0, gK := 0 }

/-- The voice that a NOTE_ON starts. -/
def voiceInit (id part note vel : Nat) (patch : Option Nat) (uIdx uCnt : Nat) : Voice :=
  { id := id, part := part, patch := patch, note := note, vel := vel, relVel := none, press := 0, uIdx := uIdx, uCnt := uCnt
    frame := 0
    oscs := List.replicate 4 ⟨0, 0, 0, false, false⟩
    flts := List.replicate 2 ⟨0, 0, 0, 0⟩
    envs := List.replicate 4 Env.init
    lfos := List.replicate 2 ⟨0, false, 0, 0, 0⟩
    sums := List.replicate 31 0#32
    xi := 0, gDelta := 0, gStep := 0, gK := 0, gN := 0 }

/-- R435: the slot is cut: a tail takes over from the words of the last frame. A voice that has computed no frame yet leaves the tail
that the slot already starts in this frame, or a new one from the words of the last frame (log 20). -/
def SlotCell.cut (s : SlotCell) : SlotCell :=
  let w := fAdd s.word s.tailWord
  match s.voice, s.tail with
  | none, _ => s
  | some v, t =>
    if v.frame ≠ 0 then { s with voice := none, tail := some ⟨w, 0, s.pan, v.part⟩ }
    else
      match t with
      | none => { s with voice := none }
      | some t => { s with voice := none, tail := some (if t.k = 0 then t else ⟨w, 0, t.pan, t.part⟩) }

/-- R414, R942: one entry at the start of its target frame. `env` builds the voice's environment from its part. -/
def applyEntry (env : Nat → VoiceEnv) (en : Entry) (s : SlotCell) : SlotCell :=
  match en.act with
  | .noteOn part note vel patch ui uc gl =>
    let s := s.cut
    let v := voiceInit en.id part note vel patch ui uc
    { s with voice := some (glideStart (env part) v gl) }
  | a =>
    match s.voice with
    | none => s
    | some v =>
      if v.id ≠ en.id then s
      else
        match a with
        | .retrig note vel flag gl _ _ =>
          let v := { v with note := note, vel := vel }
          let v := if flag then { v with envs := v.envs.map Env.restart, relVel := none } else v
          { s with voice := some (glideStart (env v.part) v gl) }
        | .release vel =>
          let v := if ((v.envs.head?.map Env.releasing).getD false) then v else { v with relVel := some vel }
          { s with voice := some { v with envs := v.envs.map Env.release } }
        | .pressure p => { s with voice := some { v with press := p } }
        | .cut => s.cut
        | .steal => s.cut
        | .noteOn .. => s

/-! ## LFOs (R493 to R496) -/

/-- Table 19-9: Pc of a division code. -/
def lfoPulses (code : Nat) : Nat :=
  nth 96 [768, 384, 288, 192, 144, 128, 96, 72, 64, 48, 36, 32, 24, 16, 12, 6] code

/-- The LFO's slots from base `b`. -/
def lfoShape (x : VoiceEnv) (v : Voice) (b : Nat) (l : Lfo) : W32 :=
  let t := phsFrac l.p 0
  let sh := slotE 7 0 (x.slot v b)
  let s :=
    if sh = 1 then line [.val (q32 (-1)), .mac (q32 4) (fAbs (fSub t (q32 1 2)))]
    else if sh = 2 then line [.val (q32 (-1)), .mac (q32 2) t]
    else if sh = 3 then line [.val one32, .msu (q32 2) t]
    else if sh = 4 then (if fLt t (q32 1 2) then one32 else q32 (-1))
    else if sh = 5 then l.held
    else look romSN l.p 12
  if slotB (x.slot v (b + 6)) then line [.val (q32 1 2), .mac (q32 1 2) s] else s

/-- R463, R496: the counts of the LFO with slots from base `b`, its delay and its fade. -/
def lfoCount (x : VoiceEnv) (v : Voice) (b o : Nat) : Nat := countN0 x.fam (f32Rat (x.f v (b + o) 0#32 (q32 20)))

/-- R496: the fade factor in frame `n` of the voice, counted from 1. -/
def lfoFade (l : Lfo) (n : Nat) : W32 :=
  if n ≤ l.nl then 0#32
  else if n - l.nl < l.nf then fMul (fItf (n - l.nl : Nat)) (q32 1 l.nf)
  else one32

/-- R493: the phase increment. -/
def lfoInc (x : VoiceEnv) (v : Voice) (b : Nat) (mf : W32) : W32 :=
  let f :=
    if slotE 1 0 (x.slot v (b + 1)) = 1 then
      let dv := q32 96 (lfoPulses (slotE 15 6 (x.slot v (b + 3))))
      ofRat ((x.tempo : Rat) / 10 * f32Rat dv / 60)
    else
      fClamp (q32 5 1000) (q32 100) (fMul (x.f v (b + 2) (q32 5 1000) (q32 100)) (fE2 (fClamp (q32 (-8)) (q32 8) mf)))
  fFtp (fMul f (q32 1 (fsInt x.fam)))

/-- R494: the LFO's beat-grid event falls in this frame. -/
def lfoGrid (x : VoiceEnv) (v : Voice) (b : Nat) : Bool :=
  slotE 1 0 (x.slot v (b + 1)) == 1 && x.grid.contains (slotE 15 6 (x.slot v (b + 3)))

/-! ## Matrix (R497 to R499) -/

/-- Table 11-6: the value of source `i`. -/
def sourceVal (x : VoiceEnv) (v : Voice) (envs lfos : List W32) (nu : W32) (i : Nat) : W32 :=
  let cc (k : Nat) : W32 := q32 (nth 0 x.part.cc k : Nat) 127
  if 1 ≤ i ∧ i ≤ 4 then nth 0#32 envs (i - 1)
  else if i = 5 ∨ i = 6 then nth 0#32 lfos (i - 5)
  else if i = 7 then velCurve x v v.vel
  else if i = 8 then (match v.relVel with | some r => velCurve x v r | none => 0#32)
  else if i = 9 then keyCurve x v v.note
  else if i = 10 then q32 v.press 127
  else if i = 11 then q32 x.part.pressure 127
  else if i = 12 then q32 ((x.part.bend : Int) - 8192) 8192
  else if i = 13 then cc 1
  else if i = 14 then cc 2
  else if i = 15 then cc 4
  else if i = 16 then cc 11
  else if 17 ≤ i ∧ i ≤ 24 then
    -- R809: the part's value through the LO and HI of the voice's own patch
    let m := i - 17
    let vm := nth 0#32 x.macros m
    let lo := x.f v (0x1B1 + 4 * m) 0#32 one32
    let hi := x.f v (0x1B2 + 4 * m) 0#32 one32
    line [.val lo, .mac vm hi, .msu vm lo]
  else if i = 25 then v.xi
  else if i = 26 then (if 2 ≤ v.uCnt then q32 (2 * (v.uIdx : Int) - v.uCnt + 1) (v.uCnt - 1) else 0#32)
  else if i = 27 then one32
  else if i = 28 then nu
  else 0#32

/-- The routes of the patch: source, destination, amount. -/
def routes (x : VoiceEnv) (v : Voice) : List (Nat × Nat × W32) :=
  (List.range 32).map fun r =>
    (slotE 31 0 (x.slot v (0x130 + 3 * r)), slotE 31 31 (x.slot v (0x131 + 3 * r)), x.f v (0x132 + 3 * r) (q32 (-256)) (q32 256))

/-- R499: the sums M0 to M30. -/
def matrix (rs : List (Nat × Nat × W32)) (src : Nat → W32) : List W32 :=
  (List.range 31).map fun d =>
    macSum ((rs.filter fun r => r.2.1 == d && r.1 != 0 && d != 0).map fun r => (r.2.2, src r.1))

/-! ## Pitch and oscillators (R469 to R478) -/

/-- The unison position φi (R471). -/
def unisonPos (v : Voice) : W32 := if 2 ≤ v.uCnt then q32 (2 * (v.uIdx : Int) - v.uCnt + 1) (v.uCnt - 1) else 0#32

/-- R469: the pitch of the oscillator with block base `b` and pitch sum `mn`. -/
def oscPitch (x : VoiceEnv) (v : Voice) (g : W32) (m1 mn : W32) (b : Nat) : W32 :=
  let k : Nat := if slotB (x.slot v (b + 6)) then v.note else 60
  let u := fMul (unisonPos v) (ofRat (f32Rat (x.f v 0x00A 0#32 (q32 100)) / 200))
  let bp := ofRat (((x.part.bend : Rat) - 8192) / 8192 * x.part.bendRange)
  let cp : Int := max (-24) (min 24 ((x.part.coarseMsb : Int) - 64))
  let fp := q32 ((x.part.fineMsb : Int) * 128 + x.part.fineLsb - 8192) 8192
  let c := slotS (-48) 48 (x.slot v (b + 4))
  let f := ofRat (f32Rat (x.f v (b + 5) (q32 (-100)) (q32 100)) / 100)
  fClamp (q32 (-24)) (q32 139)
    (line [.val (fItf k), .val g, .val u, .val bp, .val (fItf cp), .val fp, .val (fItf c), .val f, .val m1, .val mn])

/-- R473: BLEP. -/
def blep (t dt rd : W32) : W32 :=
  if fLt t dt then
    let y := fMul t rd
    line [.val (q32 (-1)), .mac y (q32 2), .msu y y]
  else if fLt (fSub one32 dt) t then
    let y := line [.mac t rd, .sub rd]
    line [.val one32, .mac y (q32 2), .mac y y]
  else 0#32

/-- R473: SAW(t). -/
def saw (t dt rd : W32) : W32 := line [.val (q32 (-1)), .mac (q32 2) t, .sub (blep t dt rd)]

/-- Table 11-3: the raw output of a virtual-analogue oscillator. -/
def vaOut (shape : Nat) (p inc : W32) (w : W32) : W32 :=
  let t := phsFrac p 0
  let dt := fScale (fItf inc.toNat) (q32 (-32))
  let rd := ofRat (1 / f32Rat dt)
  if shape = 1 then line [.val (q32 (-1)), .mac (q32 4) (fAbs (fSub t (q32 1 2)))]
  else if shape = 2 then saw t dt rd
  else if shape = 3 then
    let w := fClamp (q32 2 100) (q32 98 100) w
    let t2 := phsFrac (p - fFtp w) 0
    let s1 := saw t dt rd
    let s2 := saw t2 dt rd
    line [.val s2, .sub s1, .mac (q32 2) w, .sub one32]
  else look romSN p 12

/-- R474: the level that a phase increment reads. -/
def tableLevel (inc : W32) : Nat := ((List.range 8).find? fun k => decide (inc.toNat < 2 ^ (22 + k))).getD 7

/-- R474: the raw output of a wavetable oscillator. -/
def tableOut (c : Memory) (w : Wave) (p inc q : W32) : W32 :=
  if w.frames = 0 then 0#32
  else
    let lv := tableLevel inc
    let n := 2048 / 2 ^ lv
    let z := ofRat (((w.frames : Rat) - 1) * f32Rat (fClamp 0#32 one32 q))
    let w0 := if 2 ≤ w.frames then min (f32Val z).floor.toNat (w.frames - 2) else 0
    let i := phsIndex p (11 - lv)
    let g := phsFrac p (11 - lv)
    let one (fr : Nat) : W32 :=
      let a := tableSample c w fr lv (i % n)
      line [.val a, .mac g (tableSample c w fr lv ((i + 1) % n)), .msu g a]
    let v0 := one w0
    if w.frames < 2 then v0
    else
      let h := fSub z (fItf w0)
      line [.val v0, .mac h (one (w0 + 1)), .msu h v0]

/-- Table 11-9: the sample's points make it ended from the first frame. -/
def waveEnded (w : Wave) : Bool := decide (w.s1 ≤ w.s0) || decide (w.length < w.s1)

/-- Table 11-9: the loop mode that is played. -/
def waveLoop (w : Wave) : Nat := if w.ls < w.s0 ∨ w.s1 < w.le ∨ w.le ≤ w.ls then 0 else w.loop

/-- R476: one frame of a sample oscillator; `rel` says that ENV1 is in release. -/
def sampleStep (x : VoiceEnv) (w : Wave) (pitch : W32) (rel : Bool) (o : Osc) : Osc × W32 :=
  if o.ended ∨ waveEnded w then ({ o with ended := true }, 0#32)
  else
    let looping := waveLoop w == 1 || (waveLoop w == 2 && !rel)
    let a := waveSample x.c w o.idx
    let b := if looping && o.idx + 1 == w.le then waveSample x.c w w.ls
      else if !looping && decide (w.s1 ≤ o.idx + 1) then 0#32
      else waveSample x.c w (o.idx + 1)
    let g := phsFrac o.q 0
    let out := line [.val a, .mac g b, .msu g a]
    let ks := fxRound (fxLog2 (f32Rat w.rate / (fsInt x.fam : Rat)) - fxOfRat (f32Rat w.root / 12))
    let d := fMin (fE2 (line [.val ks, .mac pitch c12])) (q32 8)
    let id := (f32Val d).floor
    let fd := ftpDy ((f32Val d).sub (Dy.ofInt id))
    let q' := o.q + fd
    let i := o.idx + id.toNat + (if q'.toNat < o.q.toNat then 1 else 0)
    let i' := if looping && decide (w.le ≤ i) then w.ls + (i - w.ls) % (w.le - w.ls) else i
    ({ o with idx := i', q := q', ended := !looping && decide (w.s1 ≤ i) }, out)

/-- The oscillator block: kind, with a reference that names no fitting item kept apart (Table 11-9). -/
def oscWave (x : VoiceEnv) (v : Voice) (b kind : Nat) : Option Wave :=
  match waveItem x.c x.im (slotBits 15 0 (x.slot v (b + 2))) with
  | some w => if kind = 2 then (if w.kind = 1 then some w else none) else (if w.kind = 2 ∨ w.kind = 3 then some w else none)
  | none => none

/-- One oscillator in one frame: its state and raw output. `reset` is a sync reset (R482). -/
def oscFrame (x : VoiceEnv) (v : Voice) (b : Nat) (pitch shape : W32) (reset rel : Bool) (o : Osc) : Osc × W32 :=
  let kind := slotE 3 0 (x.slot v b)
  let start := fFtp (x.f v (b + 8) 0#32 phaseTop)
  if kind = 0 then ({ o with wrapped := false }, 0#32)
  else if kind = 3 then
    match oscWave x v b 3 with
    | none => ({ o with wrapped := false }, 0#32)
    | some w =>
      let o := if reset then { o with idx := w.s0, q := 0#32, ended := false } else o
      let (o, out) := sampleStep x w pitch rel o
      ({ o with wrapped := false }, out)
  else
    let p := if reset then start else o.p
    let inc := fFtp (rateFn x.fam pitch)
    let out := if kind = 1 then vaOut (slotE 7 0 (x.slot v (b + 1))) p inc shape
      else match oscWave x v b 2 with
        | some w => tableOut x.c w p inc shape
        | none => 0#32
    let p' := p + inc
    ({ o with p := p', wrapped := decide (p'.toNat < p.toNat) }, out)

/-- R483: the gain of a level slot with its matrix sum. -/
def levelGain (l m : W32) : W32 :=
  let s := fMin (fAdd l m) (q32 12)
  if fLt s (q32 (-96)) then 0#32 else dbGain s

/-! ## Filters (R484 to R487) -/

/-- R485: one stage: the states after it and v1, v2. -/
def fltStage (g k x s1 s2 : W32) : (W32 × W32) × (W32 × W32) :=
  let d := line [.val one32, .mac g g, .mac g k]
  let a1 := ofRat (1 / f32Rat d)
  let a2 := fMul g a1
  let a3 := fMul g a2
  let v3 := fSub x s2
  let v1 := line [.mac a1 s1, .mac a2 v3]
  let v2 := line [.val s2, .mac a2 s1, .mac a3 v3]
  let lim (w : W32) : W32 := fClamp (q32 (-16)) (q32 16) w
  ((lim (line [.mac (q32 2) v1, .sub s1]), lim (line [.mac (q32 2) v2, .sub s2])), (v1, v2))

/-- kB of R486. -/
def kB : W32 := fxRound (2 * fxCosTurn (1 / 16))

/-- HP of a stage. -/
def fltHp (x k v1 v2 : W32) : W32 := line [.val x, .msu k v1, .sub v2]

/-- R484 to R486: one filter with block base `b` and its cutoff and resonance sums. -/
def fltFrame (x : VoiceEnv) (v : Voice) (b : Nat) (mc mr inp : W32) (s : Flt) : Flt × W32 :=
  let ty := slotE 7 0 (x.slot v b)
  if ty = 0 ∨ ty = 7 then (s, inp)
  else
    let c := fClamp 0#32 (q32 135) (line [.val (x.f v (b + 1) 0#32 (q32 135)), .mac (x.f v (b + 2) 0#32 one32)
      (fItf ((v.note : Int) - 60)), .val mc])
    let g := look romTN (fFtp (fMul (q32 4) (rateFn x.fam c))) 10
    let r := fClamp 0#32 one32 (fAdd (x.f v (b + 3) 0#32 one32) mr)
    let k := line [.val (q32 2), .msu r (q32 196 100)]
    let (sa, (v1, v2)) := fltStage g k inp s.a1 s.a2
    let s := { s with a1 := sa.1, a2 := sa.2 }
    if ty = 1 then (s, v2)
    else if ty = 2 then (s, v1)
    else if ty = 3 then (s, fltHp inp k v1 v2)
    else if ty = 4 then (s, line [.val inp, .msu k v1])
    else
      let mid := if ty = 5 then v2 else fltHp inp k v1 v2
      let (sb, (w1, w2)) := fltStage g kB mid s.b1 s.b2
      let s := { s with b1 := sb.1, b2 := sb.2 }
      (s, if ty = 5 then w2 else fltHp mid kB w1 w2)

/-! ## The whole frame -/

/-- One voice in one frame after its entries: the voice (none once it has ended), the noise generator, the output word, the pan word. -/
def voiceFrame (x : VoiceEnv) (noise : List W32) (v0 : Voice) : Option Voice × List W32 × W32 × W32 :=
  let first := v0.frame == 0
  let n := v0.frame + 1
  let oscBase (i : Nat) : Nat := 0x020 + 0x18 * i
  let lfoBase (i : Nat) : Nat := 0x110 + 0x10 * i
  -- stage 2: random values (R480)
  let draw (st : List W32 × List W32) (take : Bool) : List W32 × List W32 :=
    if take then let r := noiseStep st.1; (r.1, st.2 ++ [r.2]) else (st.1, st.2 ++ [0#32])
  let isPhase (i : Nat) : Bool :=
    let k := slotE 3 0 (x.slot v0 (oscBase i))
    (k == 1 || k == 2) && slotB (x.slot v0 (oscBase i + 9))
  let takes : List Bool := [first] ++ ((List.range 4).map fun i => first && isPhase i) ++
    ((List.range 2).map fun i => first && slotB (x.slot v0 (lfoBase i + 5))) ++ [true]
  let (noise, rnd) := takes.foldl draw (noise, [])
  let nu := nth 0#32 rnd 7
  let startPhase (rand : Bool) (r phi : W32) : W32 :=
    if rand then fFtp (line [.val (q32 1 2), .mac (q32 1 2) r]) else fFtp phi
  let v := if first then
      { v0 with
        xi := nth 0#32 rnd 0
        oscs := (List.range 4).map fun i =>
          let ob := oscBase i
          let w := oscWave x v0 ob 3
          let s0 := match w with | some w => w.s0 | none => 0
          ⟨startPhase (isPhase i) (nth 0#32 rnd (1 + i)) (x.f v0 (ob + 8) 0#32 phaseTop), s0, 0#32, false, false⟩
        lfos := (List.range 2).map fun i =>
          ⟨startPhase (slotB (x.slot v0 (lfoBase i + 5))) (nth 0#32 rnd (5 + i)) (x.f v0 (lfoBase i + 4) 0#32 phaseTop), false, nu,
            lfoCount x v0 (lfoBase i) 7, lfoCount x v0 (lfoBase i) 8⟩ }
    else v0
  let rs := routes x v
  -- LFO phases of this frame: a beat-grid event first (R494); sample and hold (Table 11-5)
  let lfos := (List.range 2).map fun i =>
    let l := nth ⟨0, false, 0, 0, 0⟩ v.lfos i
    let l := if lfoGrid x v (lfoBase i) then { l with p := fFtp (x.f v (lfoBase i + 4) 0#32 phaseTop) } else l
    if l.wrapped then { l with held := nu } else l
  let lfoW := (List.range 2).map fun i => fMul (lfoShape x v (lfoBase i) (nth ⟨0, false, 0, 0, 0⟩ lfos i)) (lfoFade (nth ⟨0, false, 0, 0, 0⟩ lfos i) n)
  -- R460: the previous-frame sums of a first frame
  let prev := if first then matrix rs (sourceVal x v (List.replicate 4 0#32) lfoW nu) else v.sums
  let ps (d : Nat) : W32 := nth 0#32 prev d
  -- stage 3
  let envs := (List.range 4).map fun i =>
    let e := nth Env.init v.envs i
    envFrame x v (0x0D0 + 0x10 * i) (fE2 (fClamp (q32 (-8)) (q32 8) (ps (25 + i)))) 6 e
  let e1 := nth Env.init envs 0
  let rel := e1.releasing
  -- stage 4
  let lfoO := (List.range 2).map fun i =>
    let a := if rs.any (fun r => r.2.1 == 29 + i) then fClamp 0#32 one32 (ps (29 + i)) else one32
    fMul (nth 0#32 lfoW i) a
  let lfos := (List.range 2).map fun i =>
    let l := nth ⟨0, false, 0, 0, 0⟩ lfos i
    let p' := l.p + lfoInc x v (lfoBase i) (ps (23 + i))
    { l with p := p', wrapped := decide (p'.toNat < l.p.toNat) }
  -- stage 5
  let src := sourceVal x v (envs.map (·.level)) lfoO nu
  let sums := matrix rs src
  let ms (d : Nat) : W32 := nth 0#32 sums d
  -- stage 6
  let gk := v.gK + 1
  let gliding := decide (v.gK < v.gN) && decide (gk < v.gN)
  let g := if gliding then line [.val (fItf v.gDelta), .msu (fItf gk) v.gStep] else 0#32
  let pitch (i : Nat) : W32 := oscPitch x v g (ms 1) (ms (2 + i)) (oscBase i)
  let shape (i : Nat) : W32 := fAdd (x.f v (oscBase i + 7) 0#32 one32) (ms (10 + i))
  -- stage 7
  let osc (i : Nat) (reset : Bool) : Osc × W32 :=
    oscFrame x v (oscBase i) (pitch i) (shape i) reset rel (nth ⟨0, 0, 0, false, false⟩ v.oscs i)
  let o1 := osc 0 false
  let o2 := osc 1 (!first && slotB (x.slot v 0x082) && o1.1.wrapped)
  let o3 := osc 2 false
  let o4 := osc 3 (!first && slotB (x.slot v 0x083) && o3.1.wrapped)
  let outs := [o1, o2, o3, o4]
  -- stage 8
  let ring := fMul o1.2 o2.2
  let lvl (s : Nat) (d : Nat) : W32 := levelGain (x.f v s (q32 (-100)) (q32 12)) (ms d)
  let oscTerms := (List.range 4).filterMap fun i =>
    if slotE 3 0 (x.slot v (oscBase i)) = 0 then none
    else some (lvl (oscBase i + 3) (6 + i), (nth ⟨⟨0, 0, 0, false, false⟩, 0#32⟩ outs i).2)
  let mix := macSum (oscTerms ++ [(lvl 0x080 18, nu), (lvl 0x081 19, ring)])
  -- stage 9
  let par := slotE 1 0 (x.slot v 0x094) == 1
  let (f1, y1) := fltFrame x v 0x090 (ms 14) (ms 16) mix (nth ⟨0, 0, 0, 0⟩ v.flts 0)
  let (f2, y2) := fltFrame x v 0x0A8 (ms 15) (ms 17) (if par then mix else y1) (nth ⟨0, 0, 0, 0⟩ v.flts 1)
  let bal := fClamp 0#32 one32 (fAdd (x.f v 0x095 0#32 one32) (ms 20))
  let y := if par then line [.val y1, .mac bal y2, .msu bal y1] else y2
  -- stage 10
  let sg := x.f v 0x0C1 0#32 one32
  let gv := line [.val one32, .sub sg, .mac sg (src 7)]
  let gl := levelGain (x.f v 0x0C0 (q32 (-100)) (q32 12)) (ms 21)
  let amp := fMul (fMul e1.level gv) gl
  let ended := e1.stage == .done
  let word := if ended then 0#32 else fMul y amp
  -- stage 11
  let pos := fClamp (q32 (-1)) one32 (line [.val (x.f v 0x0C2 (q32 (-1)) one32),
    .val (q32 ((nth 64 x.part.cc 10 : Nat) - 64 : Int) 64), .mac (unisonPos v) (x.f v 0x00B 0#32 one32), .val (ms 22)])
  let v' := { v with
    frame := n, oscs := outs.map (·.1), flts := [f1, f2], envs := envs, lfos := lfos, sums := sums
    gK := if gliding then gk else 0, gN := if gliding then v.gN else 0 }
  (if ended then none else some v', noise, word, pos)

/-- R435: the tail word of a slot in this frame, and the tail after it. -/
def tailFrame : Option Tail → Option Tail × W32
  | none => (none, 0#32)
  | some t =>
    let w := fMul t.s (q32 (31 - t.k : Int) 32)
    (if t.k < 31 then some { t with k := t.k + 1 } else none, w)

/-- One frame of a slot: the entries targeted at the frame in their order (R31), then the voice and the tail. `ended` tells which voice
ended (R492). -/
def slotFrame (env : Nat → VoiceEnv) (frame : Nat) (q : List Entry) (s : SlotCell) : List Entry × SlotCell × Option Nat :=
  let due := q.filter fun en => decide (en.frame ≤ frame)
  let rest := q.filter fun en => decide (frame < en.frame)
  let s := due.foldl (fun s en => applyEntry env en s) s
  let (tl, tw) := tailFrame s.tail
  match s.voice with
  | none => (rest, { s with tail := tl, tailWord := tw, word := 0#32, pan := match s.tail with | some t => t.pan | none => s.pan }, none)
  | some v =>
    let (v', nz, w, pos) := voiceFrame (env v.part) s.noise v
    (rest, { s with voice := v', noise := nz, word := w, pan := pos, part := v.part, tail := tl, tailWord := tw },
      if v'.isNone then some v.id else none)

end Sys2Proof.Machine
end

