-- ==== Sys2Proof/Machine/Power.lean ====
section
/-! DEFINITION. Resets and t0 (00, 02, 03, 22), the thermos supply, and how a command reaches the engine. -/

namespace Sys2Proof.Machine

/-- The answer of a command. -/
abbrev Answer := Host.Outcome State Fault Refusal

/-- R8: neither RESET_N, the power-on reset nor an internal reset holds the engine. -/
def State.running (s : State) : Bool := s.power.resetN && !s.power.por && !s.power.internal

/-- A command that acts on the engine, after the events that still wait. In reset it does nothing (R37, R57). -/
def State.play (f : Memory → Engine → Engine) (s : State) : State :=
  if s.running then { s with eng := f s.caddy (Engine.settle s.caddy s.eng) } else s

/-- A command that may end in events for the bindings. -/
def State.playEvents (f : Memory → Engine → Engine) (s : State) : State := s.play fun c e => Engine.settle c (f c e)

/-- A command that changes what the fixed functions of the general pins carry. -/
def State.playPins (f : Memory → Engine → Engine) (s : State) : State := s.playEvents fun c e => gpFixedStep c (f c e)

/-- The unit of a retained fault that is still to be written (R864). -/
def retainedUnit (e : Engine) : List (Nat × W16) :=
  match e.faults.last with
  | some k => if e.faults.dirty ∧ e.steep.b4 ∧ e.mode ≠ .load then [(5, BitVec.ofNat 16 k.1)] else []
  | none => []

/-- What strobe `n` has still to do for a command that acts at its instant: FAULT_N and the unit of a retained fault belong to the first
strobe at or after the raise (R864, R868). -/
def State.strobeTail (s : State) : State :=
  if s.running ∧ s.eng.strobe.started ∧ s.eng.now = s.eng.strobe.last then
    { s with
      thermos := s.thermos.commit (retainedUnit s.eng)
      eng := { faultPin s.eng with faults := { s.eng.faults with dirty := s.eng.faults.dirty && (retainedUnit s.eng).isEmpty } } }
  else s

/-- A command whose instant is known: at a strobe it may still reach FAULT_N, T05 and the fault events of that strobe (R866). -/
def State.playAt (f : Memory → Engine → Engine) (s : State) : State :=
  if s.running ∧ (f s.caddy s.eng).atStrobe then { s with eng := Engine.settleAt s.caddy (f s.caddy s.eng) }.strobeTail
  else s.playEvents f

/-- As `playAt`, for a command that changes what the fixed functions of the general pins carry. -/
def State.playPinsAt (f : Memory → Engine → Engine) (s : State) : State := s.playAt fun c e => gpFixedStep c (f c e)

/-- A command that acts on the crystal, which oscillates through a reset (Table 2-6). -/
def State.onEngine (f : Engine → Engine) (s : State) : State := { s with eng := f s.eng }

/-! ## Entering reset (R37, R50, R57 to R59, R93) -/

/-- The engine cleared; the crystal monitor goes on. -/
def Engine.inReset (e : Engine) : Engine := Engine.cleared.onKettle fun k => { k with crystal := e.kettle.crystal }

/-- Everything that does not survive a reset is cleared (Table 1-7). -/
def State.clear (s : State) : State := { s with cells := List.replicate 192 Cell.zero, dnew := [], eng := s.eng.inReset }

/-- RESET_N falls (R59, R81, R905). -/
def resetFallOp (s : State) : State := { s.clear with power := { s.power with resetN := false } }

/-- R91, R93, R121: a detector trips; VPLL feeds the crystal oscillator (Table 3-1). -/
def detectorOp (r : Rail) (s : State) : State :=
  let s' := s.clear
  let s' := if r = .vpll then s'.onEngine fun e => e.onKettle fun k => { k with crystal := false } else s'
  { s' with power := { s.power with por := true, internal := false, low := if s.power.low.contains r then s.power.low else r :: s.power.low } }

/-! ## t0 (R8, R63, R66, R212, R213, R285, R479) -/

/-- Table 6-1. -/
def modeOf (m : Nat) : Mode := if m = 0 then .play else if m = 2 then .load else .bench

/-- R213. -/
def modeReserved (m : Nat) : Bool := m != 0 && m != 2 && m != 5

/-- The engine at t0 with the sampled mode pins. The trims of the calibration in force apply from t0 on, before B1 (R786). -/
def Engine.atT0 (c : Memory) (m : Nat) (e : Engine) : Engine :=
  let e := e.inReset
  let mode := modeOf m
  -- no cell is fenced at t0, so Table 10-2 gives L and the spares of f = 0 until B5 ends (log 26)
  let e := { e with
    mode := mode
    modePins := m
    image := { e.image with calCopy := calCopyOf c, cal := calOf c }
    health := { e.health with cells := placeRoles (voiceCells 0) 0 e.health.cells }
    cond := { e.cond with limit := 2 * voiceCells 0 }
    voices := (List.range 256).map fun v => { SlotCell.zero with noise := noiseInit v }
    -- FSTB takes GP15 at t0 (R63); its level until strobe 0 is the model's choice (R71, log 77)
    pins := { e.pins with gp := if mode = Mode.bench then e.pins.gp.set 15 .low else e.pins.gp } }
  gpFixedStep c (e.raiseIf (modeReserved m) 0x05)

/-- The resets that are left; t0 falls when the last one has gone (R8, R12, R201). -/
def State.release (m : Nat) (p : Power) (s : State) : State :=
  let s := { s with power := p }
  if s.running then { s.clear with eng := s.eng.atT0 s.caddy m } else s

/-- What VREFC does (R216, Table 2-6). -/
inductive Vrefc where
  | discharged | precharged | reference
deriving DecidableEq, Repr

/-- R216, Table 2-6: VREFC while the supplies and resets stand as `p`; `vana` says that VANA is above its rising threshold, which no command
reports and which must have held for tPORD when the power-on reset releases (R91). -/
def Power.vrefc (vana : Bool) (p : Power) : Vrefc :=
  if p.resetN ∧ ¬ p.por ∧ ¬ p.internal then .reference else if vana then .precharged else .discharged

/-- RESET_N is released tRSTD after its rise (R905, R915). -/
def resetRiseOp (m : Nat) (s : State) : State := if s.power.resetN then s else s.release m { s.power with resetN := true }

/-- R91: the power-on reset releases. -/
def porReleaseOp (m : Nat) (s : State) : State := if s.power.por then s.release m { s.power with por := false, low := [] } else s

/-- R201: the internal reset releases. -/
def internalReleaseOp (m : Nat) (s : State) : State := if s.power.internal then s.release m { s.power with internal := false } else s

/-- R152, R864: 1 ms after its cause, T05 is written where B4 has completed, and the internal reset begins. -/
def internalResetOp (t : Nat) (s : State) : State :=
  match s.eng.kettle.down with
  | some d =>
    if s.running ∧ d + msT 1 ≤ (t : Rat) then
      let th := if s.eng.mode ≠ .load ∧ s.eng.steep.b4 then s.thermos.commit [(5, 0x0001#16)] else s.thermos
      { s.clear with thermos := th, power := { s.power with internal := true } }
    else s
  | none => s

/-! ## Supply of the thermos (R97, R98, R109, R116, R120) -/

/-- VTH is fed from VBAK or from VIO. -/
def supplyOp (vbak : Bool) (s : State) : State := { s with power := { s.power with vbak := vbak } }

/-- The hold latch sets. -/
def holdSetOp (s : State) : State := { s with thermos := { s.thermos with hold := true } }

/-! ## The rows -/

/-- RESET_N_FALL. -/
def execResetNFall (s : State) : Answer := .next (resetFallOp s)

/-- RESET_N_RISE. -/
def execResetNRise (mode : BitVec 3) (s : State) : Answer := .next (resetRiseOp mode.toNat s)

/-- POWER_ON_RESET_RELEASE. -/
def execPowerOnResetRelease (mode : BitVec 3) (s : State) : Answer := .next (porReleaseOp mode.toNat s)

/-- DETECTOR_TRIP. -/
def execDetectorTrip (rail : Rail) (s : State) : Answer := .next (detectorOp rail s)

/-- VBAK_SWITCHOVER. -/
def execVbakSwitchover (s : State) : Answer := .next (supplyOp true s)

/-- VIO_SWITCHOVER. -/
def execVioSwitchover (s : State) : Answer := .next (supplyOp false s)

/-- HOLD_LATCH_SET. -/
def execHoldLatchSet (s : State) : Answer := .next (holdSetOp s)

/-- CRYSTAL_VALID (R128): the monitor works through a reset. -/
def execCrystalValid (t : Nat) (s : State) : Answer :=
  .next (if s.running then s.play fun _ e => crystalValidOp t e
    else s.onEngine fun e => e.onKettle fun k => { k with crystal := true, crystalAt := 0 })

/-- CRYSTAL_LOSS. -/
def execCrystalLoss (t : Nat) (s : State) : Answer :=
  .next (if s.running then s.playPinsAt fun _ e => crystalLossOp t e
    else s.onEngine fun e => e.onKettle fun k => { k with crystal := false })

/-- INTERNAL_RESET. -/
def execInternalReset (t : Nat) (s : State) : Answer := .next (internalResetOp t s)

/-- INTERNAL_RESET_RELEASE. -/
def execInternalResetRelease (mode : BitVec 3) (s : State) : Answer := .next (internalReleaseOp mode.toNat s)

/-- CRYSTAL_START_TIMEOUT. -/
def execCrystalStartTimeout (t : Nat) (s : State) : Answer := .next (s.playAt fun _ e => crystalStartOp t e)

/-- LOOP_START. -/
def execLoopStart (t : Nat) (s : State) : Answer := .next (s.play fun _ e => loopStartOp t e)

/-- LOCK_DECLARED. -/
def execLockDeclared (t : Nat) (s : State) : Answer := .next (s.playPins fun _ e => lockOp t e)

/-- UNLOCK_DECLARED. -/
def execUnlockDeclared (t : Nat) (s : State) : Answer := .next (s.playPinsAt fun c e => unlockOp c t e)

/-- LOOP_LOCK_TIMEOUT. -/
def execLoopLockTimeout (t : Nat) (s : State) : Answer := .next (s.playPinsAt fun _ e => loopTimeoutOp t e)

/-- RELOCK_ACCEPTED. -/
def execRelockAccepted (t : Nat) (s : State) : Answer := .next (s.playEvents fun _ e => relockAcceptedOp t e)

/-- RETUNE_START. -/
def execRetuneStart (s : State) : Answer := .next (s.playPinsAt fun c e => retuneStartOp c e)

/-- UNMUTE_START. -/
def execUnmuteStart (s : State) : Answer := .next (s.playAt fun _ e => unmuteStartOp e)

/-- TRACKING_SETTLED. -/
def execTrackingSettled (s : State) : Answer := .next (s.play fun _ e => trackingSettledOp e)

/-- TRACKING_SETTLED_END. -/
def execTrackingSettledEnd (s : State) : Answer := .next (s.play fun _ e => trackingEndOp e)

/-- INPUT_LOCK. -/
def execInputLock (edges : List BckEdge) (s : State) : Answer := .next (s.playEvents fun _ e => inputLockOp edges e)

/-- DECISION_INSTANT. -/
def execDecisionInstant (edges : List BckEdge) (t : Nat) (s : State) : Answer := .next (s.playEvents fun c e => decisionOp c edges t e)

end Sys2Proof.Machine
end

