-- ==== Sys2Proof/Machine/Tick.lean ====
section
/-! DEFINITION. The counter tick (R518): sampling, steps, captures, actions, conductor writes, and the events of the tick. -/

namespace Sys2Proof.Machine

/-- Counter event `kind` of counter `k`, with what the lanes make of it. -/
def counterEvent (c : Memory) (k kind : Nat) (e : Engine) : Engine :=
  let m := k - 4
  let e :=
    if k = 0 ∧ kind = 0 then pulseAt c e
    else if 4 ≤ k ∧ k ≤ 7 ∧ kind = 0 then laneStep c m (e.ctr k).rld e
    else if 4 ≤ k ∧ k ≤ 7 ∧ kind = 1 then
      let l := e.lane m
      if l.stepTick = some e.tempo.ticks ∨ l.tie then e else laneRelease c m e.nextOrder
    else e
  Engine.settle c (e.emit (.counter k kind))

/-- A write of RLD and CMP reaches the counter of lane `m` (R520, R553 to R555); it may raise a match (R524 to R526). -/
def laneWrite (c : Memory) (m : Nat) (e : Engine) : Engine × Bool :=
  match (e.lane m).part with
  | some p =>
    if (e.lane m).going then
      let v := laneCmp c e m p
      let x := e.ctr (4 + m)
      (e.mapCtr (4 + m) fun x => { x with rld := laneLen c e p (e.lane m).short, cmp := v }, decide (v ≠ 0) && x.run && decide (x.cnt ≤ v))
    else (e, false)
  | none => (e, false)

/-- R519: the events of one tick in ascending counter index, underflow before match before capture. The writes of `lanes` reach their counters in
this tick; a match that one raises and a match of the tick's step are one event (R524). -/
def tickEvents (c : Memory) (under hit caps lanes : List Nat) (e : Engine) : Engine :=
  (List.range 16).foldl (fun e k =>
    let e := if under.contains k then counterEvent c k 0 e else e
    let (e, hit) := (lanes.filter fun m => 4 + m == k).foldl (fun a m => let (e, b) := laneWrite c m a.1; (e, a.2 || b)) (e, hit.contains k)
    let e := if hit then counterEvent c k 1 e else e
    if caps.contains k then counterEvent c k 2 e else e) e

/-- R518 stage 4: the actions of the counters that underflowed or matched. -/
def tickActions (under hit : List Nat) (e : Engine) : Engine :=
  (List.range 16).foldl (fun e k =>
    let x := e.ctr k
    let link (code : Nat) (e : Engine) : Engine :=
      match x.link with
      | some t => e.mapCtr t (ctrAction code)
      | none => e
    let e := if under.contains k then link x.uLink (e.mapCtr k (ctrAction x.uSelf)) else e
    if hit.contains k then link x.mLink (e.mapCtr k (ctrAction x.mSelf)) else e) e

/-- R532: the captures of the binding counters at this tick; `was` holds the samples before it. -/
def captureDue (was : List Bool) (e : Engine) (k : Nat) : Bool :=
  let x := e.ctr k
  match x.capOn with
  | some en =>
    let old := nth false was en
    let new := (e.gpAt en).sample
    (x.capEdge != 1 && !old && new) || (x.capEdge != 0 && old && !new)
  | none => false

/-- R546: a pin tap completes its debounce at this tick, changing to active. -/
def pinTap (c : Memory) (e : Engine) (i : Nat) : Bool :=
  let g := e.gpAt i
  gpInput c e i && gpRole c e.image i == 1 && decide (0 < g.run) && decide (g.run = g.need) && !gpActive c e i

/-- The writes whose apply tick has come. -/
def dueWrites (e : Engine) : List CWrite := (e.tempo.writes.filter fun x => decide (x.1 ≤ e.strobe.n)).map (·.2)

/-- R540 to R545: a Timing Clock applies. The pulse that it raises at this very tick belongs to the stepping of the counters (`pulseForced`). -/
def applyClock (c : Memory) (e : Engine) : Engine :=
  let now := e.tempo.ticks
  let near := match e.tempo.clkLast with
    | some l => decide (e.now - l ≤ msT 250)
    | none => false
  let e := e.onTempo fun t => { t with clkRun := if near then t.clkRun + 1 else 1, clkLast := some e.now, quietAt := e.now }
  let e := if 3 ≤ e.tempo.clkRun then extEnter e else e
  if !e.tempo.ext then e
  else
    let e := clockTempo (e.onTempo fun t => { t with clks := (now :: t.clks).take 25 })
    match e.tempo.k with
    | none => e
    | some k =>
      if e.tempo.waiting then
        let e := e.onTempo fun t => { t with k := some (k + 1) }
        Engine.settle c (transportStart c e)
      else if e.tempo.running then
        let tgt := (4 * (k + 1)).toNat
        let e := e.onTempo fun t => { t with k := some (k + 1) }
        if tgt ≤ e.tempo.j then e.mapCtr 0 fun x => { x with run := true }
        else (e.onTempo fun t => { t with catchTo := some tgt }).mapCtr 0 fun x => { x with run := false }
      else e

/-- R518 stage 5: one conductor write; those of the lane counters are part of `tickEvents`. `fresh` counts the pulses that a clock of this
very tick has already raised: a Continue that applies before that clock takes J as it was without them. -/
def applyWrite (c : Memory) (fresh : Nat) (w : CWrite) (e : Engine) : Engine :=
  match w with
  | .pulse => e.mapCtr 0 fun x => { x with rld := nextReload e }
  | .lane _ => e
  | .arm m =>
    let now := e.tempo.ticks
    if (e.lane m).part.isSome ∧ ¬ (e.lane m).going then e.mapLane m fun l => { l with armed := some now } else e
  | .act k code => e.mapCtr k (ctrAction code)
  | .tempo t => if e.tempo.ext then e else writeTempo (tempoTo (tempoClamp t) e)
  | .tempoStep d => if e.tempo.ext then e else writeTempo (tempoTo (tempoClamp ((e.tempo.tempo : Int) + d)) e)
  | .transport code =>
    if e.tempo.ext then e
    else
      let go := if code = 2 then !e.tempo.running else code == 1
      if go = e.tempo.running then e
      else if go then Engine.settle c (transportStart c e)
      else Engine.settle c (transportStop c e)
  | .clock => applyClock c e
  | .start =>
    let e := extEnter e
    let e := transportStop c e
    Engine.settle c (e.onTempo fun t => { t with k := some (-1), waiting := true, quietAt := e.now })
  | .resume =>
    let e := extEnter e
    let e := e.onTempo fun t => { t with quietAt := e.now }
    if e.tempo.k = some (-1) then e.onTempo fun t => { t with waiting := true }
    else
      let j := e.tempo.j
      let k := (e.tempo.k).getD (((j - fresh) / 4 : Nat) : Int)
      let e := e.onTempo fun t => { t with running := true, k := some k }
      e.mapCtr 0 fun x => { x with run := decide ((j : Int) < 4 * k + 3) }
  | .stop => Engine.settle c (transportStop c e)
  | .tap => e
  | .tapRead => tapRead e
  | .capRead k => e.mapCtr k fun x => { x with cap := none, ovf := false }

/-- R543: the catch-up of the engine `e'` raises a pulse at the tick at which `e` stands; whether it is the last one. A write that starts the
transport raises the tick's pulse itself. -/
def catchDue (e e' : Engine) : Option Bool :=
  match e'.tempo.catchTo with
  | some tgt =>
    if e.tempo.j < tgt ∧ e'.tempo.running ∧ e'.tempo.events.length = e.tempo.events.length then some (e.tempo.j + 1 == tgt) else none
  | none => none

/-- R543: a clock that has applied, or that applies at this tick among the writes `due`, raises a pulse at this tick; whether it is the last
one of the catch-up. The writes are tried out in their order for that; what a later write of the tick does to the transport does not take
the pulse back. -/
def pulseForced (c : Memory) (due : List CWrite) (e : Engine) : Option Bool :=
  (due.foldl (fun (a : Engine × Option Bool) w =>
    let e' := applyWrite c 0 w a.1
    (e', if w = .clock then (catchDue e e').or a.2 else a.2)) (e, catchDue e e)).2

/-- The lanes whose counters the writes reach. -/
def laneWrites (due : List CWrite) : List Nat := due.filterMap fun w => match w with | .lane m => some m | _ => none

/-- R518 for a tick after F. `phase` is the tick's place after its strobe; 0 coincides with it. -/
def counterStages (c : Memory) (was : List Bool) (phase : Nat) (e : Engine) : Engine :=
  let e := e.onTempo fun t => { t with ticks := t.ticks + 1 }
  let due := if phase = 0 then dueWrites e else []
  -- stage 2
  let forced := pulseForced c due e
  let (under, hit, e) :=
    match forced with
    | some last =>
      let e := e.onTempo fun t => { t with catchTo := if last then none else t.catchTo }
      let e := pulseAdvance e
      let e := if last then e.mapCtr 0 fun x => { x with cnt := x.rld, run := true } else e
      stepFrom false 15 1 [0] [] e
    | none =>
      let (under, hit, e) := stepFrom false 16 0 [] [] e
      (under, hit, if under.contains 0 then pulseAdvance e else e)
  -- stage 3
  let taps := if e.tempo.ext then 0
    else ((List.range 16).filter (pinTap c e)).length + (due.filter fun w => w == .tap).length
  let caps := (List.range 8).filterMap fun i => if captureDue was e (8 + i) then some (8 + i) else none
  let e := caps.foldl (fun e k => ctrCapture k e) e
  let e := (List.range taps).foldl (fun e _ => tapCapture (hit.contains 3) e) e
  -- stage 4
  let e := tickActions under hit e
  let e := if hit.contains 3 then e.onTempo fun t => { t with taps := [] } else e
  let e := if taps = 0 then e else e.mapCtr 3 (ctrAction 4)
  let e := tickEvents c under hit (if taps = 0 then caps else 3 :: caps) (laneWrites due) e
  -- stage 5
  if phase = 0 then
    let e := e.onTempo fun t => { t with writes := t.writes.filter fun x => decide (e.strobe.n < x.1) }
    due.foldl (fun e w => applyWrite c forced.isSome.toNat w e) e
  else e

/-- The instant of tick `i` after the last strobe or, before the first carrier strobe, after the carrier's origin (R133, R144). The spec
does not say whether the origin after an unlock bears a tick itself; the model places the first tick a quarter of a frame after it (log 98).
-/
def tickAt (e : Engine) (i : Nat) : Time :=
  let k := e.kettle
  if k.carrier then
    let m := 4 * k.carrierK + i
    match k.fam with
    | .f48 => k.origin + ((1024 * m : Nat) : Rat)
    | .f44 => ((16 * (k.origin / 16 + ((m * 122880 : Nat) : Rat) / 1764).floor : Int) : Rat)
  else e.strobe.last + loopFrame k * (i : Rat) / 4

/-- COUNTER_TICK: the next of the four ticks of the frame; more than four change nothing. -/
def counterTickOp (c : Memory) (pins : BitVec 16) (e : Engine) : Engine :=
  let i := e.strobe.tick
  if !e.strobe.started || decide (4 ≤ i) then e
  else
    let e := { e with strobe := { e.strobe with tick := i + 1 }, now := max e.now (tickAt e i) }
    -- R71: FSTB is high for the first tick of the frame
    let e := if e.mode = .bench ∧ 1 ≤ i then { e with pins := { e.pins with gp := e.pins.gp.set 15 .low } } else e
    if !e.served || e.mode == .load then e
    else
      let was := e.gp.map (·.sample)
      let e := (List.range 16).foldl (gpSample c pins) e
      if e.steep.f = some e.strobe.n ∧ i = 0 then e else counterStages c was i e

/-- EXTERNAL_MODE_EXIT (R540). -/
def externalExitOp (e : Engine) : Engine :=
  if e.tempo.ext ∧ e.tempo.quietAt + msT 300 < e.now + 1 then
    let e := e.onTempo fun t =>
      { t with ext := false, running := true, k := none, waiting := false, catchTo := none, clks := [], clkRun := 0, clkLast := none }
    let e := e.mapCtr 0 fun x => { x with run := true }
    e.writeWord 4 (BitVec.ofNat 16 e.tempo.tempo)
  else e

end Sys2Proof.Machine
end

