-- ==== Sys2Proof/Machine/Port.lean ====
section
/-! DEFINITION. The rows of the event port (07) and of the tempo counters (12): characters, complete messages, the idle line, the counter tick. -/

namespace Sys2Proof.Machine

/-- The latest instant moves to `t`. -/
def Engine.seen (t : Time) (e : Engine) : Engine := { e with now := max e.now t }

/-- The bytes of a message row, the last one complete at `t` (R279). -/
def messageRow (bs : List Byte) (t : Nat) (s : State) : Answer :=
  .next (s.playEvents fun c e => parseMessage c bs t (e.seen (t : Rat)))

/-- A control change of channel `ch`. -/
def controlRow (ch : BitVec 4) (cc : Nat) (v : BitVec 7) (t : Nat) (s : State) : Answer :=
  messageRow [statusByte 11 ch, BitVec.ofNat 8 cc, dataByte v] t s

/-- A channel message with two data bytes. -/
def pairRow (n : Nat) (ch : BitVec 4) (a b : BitVec 7) (t : Nat) (s : State) : Answer :=
  messageRow [statusByte n ch, dataByte a, dataByte b] t s

/-- CHARACTER (R260 to R263, R274, R290, R740): `t` is the start edge; `rise` is where RXD rises after a low stop sample. -/
def characterOp (c : Memory) (samples : BitVec 10) (t rise : Nat) (e : Engine) : Engine :=
  if charDue samples t e then
    let b := charByte samples
    let full := stopSample t e
    let e := tookChar b t (e.seen full)
    if e.mode = .load then e else parseByte c full e b
  else if samples.getLsbD 0 then e
  else if samples.getLsbD 9 then e
  else framingErr t rise e

/-- The start edge of the character that a command brings. -/
def startEdge : Instr → Option Nat
  | .character _ ts => some ts.t
  | .framingError t _ => some t
  | _ => none

/-- R302: a start edge arrives by `t`, in a character that waits behind: it completes after the instant at which its start edge keeps the
idle line away. -/
def edgeBy (t : Nat) (e : Engine) (l : List Instr) : Bool :=
  l.any fun i => match startEdge i with
    | some u => decide (u ≤ t) && armedAt (u : Rat) e
    | none => false

/-- IDLE_LINE (R272, R273, R302): in Load mode it ends the load frame (R741, R742). -/
def idleRow (t : Nat) (s : State) : State :=
  if s.running ∧ idleDue t s.eng = true ∧ edgeBy t s.eng s.pending = false then
    let r := loadBytes s.eng.link.rx (s.eng.link.rxStart.getD s.eng.now) s.caddy (s.eng.seen (t : Rat))
    { s with caddy := r.1, eng := idleLineOp r.2 }
  else s

/-! ## The rows of the receiver -/

/-- SYNC_CHARACTER. -/
def execSyncCharacter (edges : List Nat) (stopHigh : Bool) (s : State) : Answer :=
  .next (s.playEvents fun _ e => acceptSync edges stopHigh e)

/-- SYNC_CANDIDATE_REJECTED. -/
def execSyncCandidateRejected (c : SyncCandidate) (s : State) : Answer :=
  .next (s.playEvents fun _ e => rejectSync c.edges c.t (e.seen (c.t : Rat)))

/-- FRAMING_ERROR. -/
def execFramingError (t rise : Nat) (s : State) : Answer :=
  .next (s.playEvents fun _ e => framingErr t rise e)

/-- IDLE_LINE. -/
def execIdleLine (t : Nat) (s : State) : Answer := .next (idleRow t s)

/-- CHARACTER. -/
def execCharacter (samples : BitVec 10) (times : CharTimes) (s : State) : Answer :=
  .next (s.playEvents fun c e => characterOp c samples times.t times.rise e)

/-! ## The rows of the channel messages (Tables 7-4 and 7-5) -/

/-- NOTE_OFF. -/
def execNoteOff (ch : BitVec 4) (note vel : BitVec 7) (t : Nat) (s : State) : Answer := pairRow 8 ch note vel t s

/-- NOTE_ON. -/
def execNoteOn (ch : BitVec 4) (note vel : BitVec 7) (t : Nat) (s : State) : Answer := pairRow 9 ch note vel t s

/-- POLYPHONIC_KEY_PRESSURE. -/
def execPolyKeyPressure (ch : BitVec 4) (note p : BitVec 7) (t : Nat) (s : State) : Answer := pairRow 10 ch note p t s

/-- CONTROL_CHANGE. -/
def execControlChange (ch : BitVec 4) (cc v : BitVec 7) (t : Nat) (s : State) : Answer := controlRow ch cc.toNat v t s

/-- CC 0. -/
def execBankSelectMsb (ch : BitVec 4) (v : BitVec 7) (t : Nat) (s : State) : Answer := controlRow ch 0 v t s

/-- CC 6. -/
def execDataEntryMsb (ch : BitVec 4) (v : BitVec 7) (t : Nat) (s : State) : Answer := controlRow ch 6 v t s

/-- CC 38. -/
def execDataEntryLsb (ch : BitVec 4) (v : BitVec 7) (t : Nat) (s : State) : Answer := controlRow ch 38 v t s

/-- CC 7. -/
def execPartVolume (ch : BitVec 4) (v : BitVec 7) (t : Nat) (s : State) : Answer := controlRow ch 7 v t s

/-- CC 10. -/
def execPan (ch : BitVec 4) (v : BitVec 7) (t : Nat) (s : State) : Answer := controlRow ch 10 v t s

/-- CC 16 to 19 and 80 to 83: macros 1 to 8. -/
def execMacros (ch : BitVec 4) (m : Fin 8) (v : BitVec 7) (t : Nat) (s : State) : Answer :=
  controlRow ch (if m.val < 4 then 16 + m.val else 76 + m.val) v t s

/-- CC 64. -/
def execSustain (ch : BitVec 4) (v : BitVec 7) (t : Nat) (s : State) : Answer := controlRow ch 64 v t s

/-- CC 65. -/
def execPortamento (ch : BitVec 4) (v : BitVec 7) (t : Nat) (s : State) : Answer := controlRow ch 65 v t s

/-- CC 66. -/
def execSostenuto (ch : BitVec 4) (v : BitVec 7) (t : Nat) (s : State) : Answer := controlRow ch 66 v t s

/-- CC 100 and 101. -/
def execRpnSelect (ch : BitVec 4) (msb : Bool) (v : BitVec 7) (t : Nat) (s : State) : Answer :=
  controlRow ch (if msb then 101 else 100) v t s

/-- CC 98 and 99. -/
def execNrpnSelect (ch : BitVec 4) (msb : Bool) (v : BitVec 7) (t : Nat) (s : State) : Answer :=
  controlRow ch (if msb then 99 else 98) v t s

/-- CC 120. -/
def execAllSoundOff (ch : BitVec 4) (v : BitVec 7) (t : Nat) (s : State) : Answer := controlRow ch 120 v t s

/-- CC 121. -/
def execResetAllControllers (ch : BitVec 4) (v : BitVec 7) (t : Nat) (s : State) : Answer := controlRow ch 121 v t s

/-- CC 123 to 127. -/
def execAllNotesOff (ch : BitVec 4) (k : Fin 5) (v : BitVec 7) (t : Nat) (s : State) : Answer := controlRow ch (123 + k.val) v t s

/-- PROGRAM_CHANGE. -/
def execProgramChange (ch : BitVec 4) (p : BitVec 7) (t : Nat) (s : State) : Answer := messageRow [statusByte 12 ch, dataByte p] t s

/-- CHANNEL_PRESSURE. -/
def execChannelPressure (ch : BitVec 4) (p : BitVec 7) (t : Nat) (s : State) : Answer := messageRow [statusByte 13 ch, dataByte p] t s

/-- PITCH_BEND. -/
def execPitchBend (ch : BitVec 4) (lsb msb : BitVec 7) (t : Nat) (s : State) : Answer := pairRow 14 ch lsb msb t s

/-! ## The rows of the system messages (Table 7-7) -/

/-- SYSTEM_EXCLUSIVE: discarded up to its F7. -/
def execSystemExclusive (data : List (BitVec 7)) (t : Nat) (s : State) : Answer :=
  messageRow (0xF0#8 :: (data.map dataByte ++ [0xF7#8])) t s

/-- The system common bytes F1 to F7 with the data that follow: discarded. -/
def execSystemCommon (k : Fin 7) (data : List (BitVec 7)) (t : Nat) (s : State) : Answer :=
  messageRow (BitVec.ofNat 8 (0xF1 + k.val) :: data.map dataByte) t s

/-- TIMING_CLOCK. -/
def execTimingClock (t : Nat) (s : State) : Answer := messageRow [0xF8#8] t s

/-- START. -/
def execStartPlay (t : Nat) (s : State) : Answer := messageRow [0xFA#8] t s

/-- CONTINUE. -/
def execContinuePlay (t : Nat) (s : State) : Answer := messageRow [0xFB#8] t s

/-- STOP. -/
def execStopPlay (t : Nat) (s : State) : Answer := messageRow [0xFC#8] t s

/-- F9, FD, FE and FF: ignored. -/
def execIgnoredRealTime (k : Fin 4) (t : Nat) (s : State) : Answer :=
  messageRow [if k.val = 0 then 0xF9#8 else BitVec.ofNat 8 (0xFC + k.val)] t s

/-! ## The rows of the tempo counters -/

/-- COUNTER_TICK: the levels of GP0 to GP15 at the tick. -/
def execCounterTick (pins : BitVec 16) (s : State) : Answer := .next (s.playEvents fun c e => counterTickOp c pins e)

/-- EXTERNAL_MODE_EXIT. -/
def execExternalModeExit (t : Nat) (s : State) : Answer := .next (s.play fun _ e => externalExitOp (e.seen (t : Rat)))

end Sys2Proof.Machine
end

