-- ==== Sys2Proof/Machine/Controls.lean ====
section
/-! DEFINITION. The rows of the remote control and the switches (16), of the load service (17) and of the binding actions (20.8). -/

namespace Sys2Proof.Machine

/-! ## IR and switches -/

/-- PULSE_DISTANCE_CODE_FRAME. -/
def execPulseDistanceCodeFrame (runs : List IrRun) (t : Nat) (s : State) : Answer :=
  .next (s.playEvents fun c e => irCodeFrame c runs t (e.at t))

/-- PULSE_DISTANCE_REPEAT_FRAME. -/
def execPulseDistanceRepeatFrame (runs : List IrRun) (t : Nat) (s : State) : Answer :=
  .next (s.playEvents fun c e => irRepeatFrame c runs t (e.at t))

/-- BI_PHASE_FRAME. -/
def execBiPhaseFrame (runs : List IrRun) (t : Nat) (s : State) : Answer := .next (s.playEvents fun c e => irBiFrame c runs t (e.at t))

/-- CHAIN_TIMEOUT. -/
def execChainTimeout (t : Nat) (s : State) : Answer := .next (s.playEvents fun c e => irTimeout c t (e.at t))

/-- FLOOD. -/
def execFlood (a : IrActivity) (s : State) : Answer := .next (s.playEvents fun c e => irFloodOp c a.runs a.t (e.at a.t))

/-- FLOOD_END. -/
def execFloodEnd (i : IrIdle) (s : State) : Answer := .next (s.play fun _ e => irFloodEnd i.idle i.t (e.at i.t))

/-- DEBOUNCE_CHANGE. -/
def execDebounceChange (entry : Fin 16) (s : State) : Answer := .next (s.playEvents fun c e => debounceChangeOp c entry.val e)

/-- SWITCH_REPEAT. -/
def execSwitchRepeat (entry : Fin 16) (s : State) : Answer := .next (s.playEvents fun c e => switchRepeatOp c entry.val e)

/-- SWITCH_LONG. -/
def execSwitchLong (entry : Fin 16) (s : State) : Answer := .next (s.playEvents fun c e => switchLongOp c entry.val e)

/-! ## Load service (Table 17-9) -/

/-- The idle line that ends a load frame of `n` bytes whose first start edge falls at `t`: R272 after its last stop sample, its characters
following one another (log 109). -/
def frameEndAt (t n : Nat) (e : Engine) : Time := (t : Rat) + (10 * (n : Rat) + 19 / 2) * e.link.tr.getD 0

/-- A whole load frame with a sound check word and `n` payload bytes, between two idle lines (R740): its first start edge falls at the
instant of its head, where the receiver takes characters (R260, R266, R267), and its idle line ends it (R273). -/
def loadRow (cmd : Byte) (h : LoadHead) (n : Nat) (op : Memory → Engine → LoadOut) (s : State) : Answer :=
  .next (if s.running ∧ s.eng.mode = .load ∧ armedAt (h.t : Rat) s.eng ∧ s.eng.link.rx = [] then
      let r := loadFrame cmd h.seq (h.t : Rat) op s.caddy (s.eng.seen (frameEndAt h.t (9 + n) s.eng))
      { s with caddy := r.1, eng := idleLineOp r.2 }
    else s)

/-- INFO. -/
def execLoadInfo (h : LoadHead) (s : State) : Answer := loadRow 0x01#8 h 0 loadInfoOp s

/-- OPEN. -/
def execLoadOpen (h : LoadHead) (mode : Byte) (tag : W32) (failRow : Option Nat) (s : State) : Answer :=
  loadRow 0x10#8 h 5 (loadOpenOp mode tag failRow) s

/-- SECTION. -/
def execLoadSection (h : LoadHead) (id : W16) (length scrc : W32) (s : State) : Answer :=
  loadRow 0x11#8 h 10 (loadSectionOp id.toNat length.toNat scrc) s

/-- DATA. -/
def execLoadData (h : LoadHead) (offset : W32) (bytes : List Byte) (failRow : Option Nat) (s : State) : Answer :=
  loadRow 0x12#8 h (4 + bytes.length) (loadDataOp offset.toNat bytes failRow) s

/-- SEAL. -/
def execLoadSeal (h : LoadHead) (failRow : Option Nat) (s : State) : Answer := loadRow 0x13#8 h 0 (loadSealOp failRow) s

/-- CLOSE. -/
def execLoadClose (h : LoadHead) (failRow : Option Nat) (s : State) : Answer := loadRow 0x14#8 h 0 (loadCloseOp failRow) s

/-- ABORT. -/
def execLoadAbort (h : LoadHead) (s : State) : Answer := loadRow 0x15#8 h 0 loadAbortOp s

/-! ## Binding actions (Table 20-11) -/

/-- An action of a binding; bindings work from F on (R171). -/
def actionRow (f : Memory → Engine → Engine) (s : State) : Answer := .next (s.playEvents fun c e => if e.served then f c e else e)

/-- Code 1. -/
def execVolumeStep (value : W32) (s : State) : Answer := actionRow (fun _ => actVolumeStep value.toInt) s

/-- Code 2. -/
def execVolumeSet (value : W32) (s : State) : Answer := actionRow (fun _ => actVolumeSet value.toInt) s

/-- Code 3. -/
def execMuteToggle (s : State) : Answer := actionRow (fun _ e => setMute (!e.mix.muted) e) s

/-- Code 4. -/
def execMute (s : State) : Answer := actionRow (fun _ => setMute true) s

/-- Code 5. -/
def execUnmute (s : State) : Answer := actionRow (fun _ => setMute false) s

/-- Code 6. -/
def execSourceSet (value : W32) (s : State) : Answer := actionRow (fun _ => actSourceSet value.toInt) s

/-- Code 7. -/
def execSourceCycle (s : State) : Answer := actionRow (fun _ => actSourceCycle) s

/-- Code 8. -/
def execProfileSet (value : W32) (s : State) : Answer := actionRow (fun _ => actProfileSet value.toInt) s

/-- Code 9. -/
def execProfileStep (value : W32) (s : State) : Answer := actionRow (fun _ => actProfileStep value.toInt) s

/-- Code 10. -/
def execPatchSet (part bank : Byte) (value : W32) (s : State) : Answer :=
  actionRow (fun c => actPatchSet c part.toNat bank.toNat value.toInt) s

/-- Code 11. -/
def execPatchStep (part : Byte) (value : W32) (s : State) : Answer := actionRow (fun c => actPatchStep c part.toNat value.toInt) s

/-- Code 12. -/
def execMacroSet (part m : Byte) (value : W32) (s : State) : Answer := actionRow (fun c => actMacroSet c part.toNat m.toNat value) s

/-- Code 13. -/
def execMacroStep (part m : Byte) (value : W32) (s : State) : Answer := actionRow (fun c => actMacroStep c part.toNat m.toNat value) s

/-- Code 14. -/
def execTap (s : State) : Answer := actionRow (fun _ => actTap) s

/-- Code 15. -/
def execTempoStep (value : W32) (s : State) : Answer := actionRow (fun _ => actTempoStep value.toInt) s

/-- Code 16. -/
def execTransport (arg : Byte) (s : State) : Answer := actionRow (fun _ => actTransport arg.toNat) s

/-- Code 17. -/
def execCcSend (part cc v : Byte) (s : State) : Answer := actionRow (fun c => actCcSend c part.toNat cc.toNat v.toNat) s

/-- Code 18. -/
def execNote (part note vel : Byte) (s : State) : Answer := actionRow (fun c => actNote c part.toNat note.toNat vel.toNat) s

/-- Code 19. -/
def execCounter (n action : Byte) (s : State) : Answer := actionRow (fun _ => actCounter n.toNat action.toNat) s

/-- Code 20. -/
def execPinSet (entry : Byte) (s : State) : Answer := actionRow (fun c => pinAction c entry.toNat .set) s

/-- Code 21. -/
def execPinClear (entry : Byte) (s : State) : Answer := actionRow (fun c => pinAction c entry.toNat .clear) s

/-- Code 22. -/
def execPinToggle (entry : Byte) (s : State) : Answer := actionRow (fun c => pinAction c entry.toNat .toggle) s

/-- Code 23. -/
def execPinLevel (entry level : Byte) (s : State) : Answer := actionRow (fun c => pinAction c entry.toNat (.level level.toNat)) s

/-- Code 24. -/
def execDuck (which arg : Byte) (s : State) : Answer := actionRow (fun _ => actDuck which.toNat arg.toNat) s

/-- Code 25. -/
def execWetSet (effect : Byte) (value : W32) (s : State) : Answer := actionRow (fun _ => actWet effect.toNat value) s

end Sys2Proof.Machine
end

