-- ==== Sys2Proof/Machine/Steep.lean ====
section
/-! DEFINITION. The bring-up steps (05, 06.2, 03.6, 03.7): straps, directory, thermos, content scan, part preparation, STEEP_LATE, the chime's
end, and the receiver's arming. -/

namespace Sys2Proof.Machine

/-- A map of steep. -/
def Engine.onSteep (f : Steep → Steep) (e : Engine) : Engine := { e with steep := f e.steep }

/-! ## B1 (R164, R217 to R227) -/

/-- The upper ends of the windows of Table 6-2. -/
def strapTops : List Nat := [95, 297, 512, 757, 1041, 1361, 1677, 1982, 2301, 2627, 2947, 3229, 3488, 3729, 3946, 4095]

/-- R217: the level of a strap code. -/
def strapLevel (code : Nat) : Nat := (strapTops.findIdx? fun t => decide (code ≤ t)).getD 15

/-- The five codes of a strap, each conversion with its own VREFC, in ascending order (R164, R214, R921). -/
def strapCodes (v vref : StrapVolts) : List Nat := sortNat ((v.toList.zip vref.toList).map fun x : Nat × Nat => convCode (x.1 : Int) x.2)

/-- The level of the median, and whether the codes fall in different windows (R221). -/
def strapRead (v vref : StrapVolts) : Nat × Bool :=
  let l := strapCodes v vref
  (strapLevel (nth 0 l 2), strapLevel (nth 0 l 0) != strapLevel (nth 0 l 4))

/-- The length of B1: 240 crystal periods (R164). The input ignores its pins before its end (R324). -/
def b1Time : Time := ((16 * 240 : Nat) : Rat)

/-- STRAP_BURST. -/
def strapBurstOp (a b c d : StrapVolts) (r : StrapRefs) (e : Engine) : Engine :=
  if e.kettle.crystal ∧ ¬ e.steep.b1 then
    let e := { e with now := max e.now (e.kettle.crystalAt + b1Time) }
    let (la, ua) := strapRead a r.a
    let (lb, ub) := strapRead b r.b
    let (lc, uc) := strapRead c r.c
    let (ld, ud) := strapRead d r.d
    let s : Straps := ⟨la, lb, lc, ld⟩
    let e := { e with straps := s, input := { e.input with runFrom := (e.kettle.crystalAt + b1Time).ceil.toNat } }.onSteep fun x => { x with b1 := true }
    let e := { e with link := { e.link with tr := if autobaud s then e.link.tr else some trFixed } }
    let e := e.raiseIf (decide (12 ≤ la) && decide (la ≤ 14)) 0x06
    let e := e.raiseIf (decide (8 ≤ lb) && decide (lb ≤ 14)) 0x06
    [ua, ub, uc, ud].foldl (fun e u => e.raiseIf u 0x07) e
  else e

/-! ## B3 (R165, R772, R773, R790, R285) -/

/-- R285: CC 7 and CC 10 of every part from the part table. -/
def partsFromTable (c : Memory) (im : Image) : List PartRec :=
  (List.range 16).map fun i =>
    let b := 0x100 + 0x20 * i
    { PartRec.zero with cc := (PartRec.zero.cc.set 7 (slotU 0 127 (sysSlot c im (b + 3)))).set 10 (slotU 0 127 (sysSlot c im (b + 4))) }

/-- DIRECTORY_CHECK. -/
def directoryCheckOp (c : Memory) (e : Engine) : Engine :=
  if e.steep.b3 then e
  else
    let dir := directoryInForce c
    let sys := (sectionOfId c dir 0x0200).map (·.base)
    let e := e.later
    let im := { Image.none with
      dir := dir, sys := sys, calCopy := calCopyOf c, cal := calOf c }
    let ps := partsFromTable c im
    let e := { e with image := im, parts := ps, live := ps }.onSteep fun x => { x with b3 := true }
    let e := e.raiseIf dir.isNone 0x10
    let e := e.raiseIf (dir.isSome && sys.isNone) 0x11
    e.raiseIf (calCopyOf c).isNone 0x14

/-! ## B8 (R166, R772, R790) -/

/-- The entries that B8 reads. -/
def scanEntries (im : Image) : List DirEntry := ((im.dir.map (·.entries)).getD []).filter fun x => x.id != 0x0200

/-- CONTENT_SCAN. -/
def contentScanOp (c : Memory) (e : Engine) : Engine :=
  if e.steep.b3 ∧ ¬ e.steep.b8 ∧ e.mode ≠ .load then
    let e := e.later
    let im := e.image
    let sect (id : Nat) : Option Section := sectionOfId c im.dir id
    let bad := (scanEntries im).filter fun x => (sectionOf c x).isNone
    let e := { e with image := { im with banks := (List.range 4).map sect, waves := (List.range 16).map fun n => sect (0x0100 + n) } }
    let e := e.onSteep fun x => { x with b8 := true }
    bad.foldl (fun e _ => e.raise 0x11) e
  else e

/-! ## B4 (R111 to R115, R168) -/

/-- A word of the thermos. -/
def Thermos.word (t : Thermos) (i : Nat) : Nat := (nth 0#16 t.words i).toNat

/-- R104, R111: word `i` lies in its range and holds no unassigned bit. -/
def wordOk (i w : Nat) : Bool :=
  if i = 0 then w == 0xC10C
  else if i = 1 then w % 32768 / 256 == 0
  else if i = 2 then decide (w ≤ 2)
  else if i = 3 then w / 16 % 16 == 0 && w / 4096 % 8 == 0
  else if i = 4 then decide (200 ≤ w) && decide (w ≤ 3000)
  else if i = 5 then decide (w ≤ 0x3F)
  else if 0x10 ≤ i ∧ i ≤ 0x1F then decide (w < 512)
  else w == 0

/-- R111: the record is used. -/
def Thermos.recordOk (t : Thermos) : Bool :=
  !t.hold && t.words.length == 64 && thermosCrc t.words == t.tc && (List.range 64).all fun i => wordOk i (t.word i)

/-- The thermos defaults of the system section in force (Table 20-2, R832). -/
def thermosDefaults (c : Memory) (im : Image) (d : Nat) : List W16 :=
  (List.range 64).map fun i =>
    BitVec.ofNat 16 (
      if i = 0 then 0xC10C
      else if i = 1 then slotU 0 255 (sysSlot c im 0x020) + (if slotB (sysSlot c im 0x021) then 32768 else 0)
      else if i = 2 then slotU 0 2 (sysSlot c im 0x022)
      else if i = 3 then d + 256 * d
      else if i = 4 then slotU 200 3000 (sysSlot c im 0x023)
      else if 0x10 ≤ i ∧ i ≤ 0x1F then
        let b := 0x100 + 0x20 * (i - 0x10)
        slotU 0 127 (sysSlot c im (b + 2)) + 128 * slotU 0 3 (sysSlot c im (b + 1))
      else 0)

/-- R114: T03 of the record in force and the profile. -/
def profileWord (w d : Nat) : Nat × Nat :=
  if 32768 ≤ w ∧ w / 256 % 16 = d then (w, w % 16) else (d + 256 * d, d)

/-- The settings of the mix that a record gives (R115, R622 to R624). -/
def mixOfRecord (index : Nat) (muted : Bool) (source profile : Nat) : MixRec :=
  let g (b : Bool) : Slide := Slide.still (if b then 1 else 0)
  { MixRec.zero with
    index := index, muted := muted, source := source, profile := profile
    vol := ⟨volDb index, volDb index, 0, 1⟩, gM := g (!muted), gsP := g (source != 2), gsV := g (source != 1) }

/-- THERMOS_STEP on the machine. -/
def thermosStepOp (s : State) : State :=
  let e := s.eng
  if s.running ∧ e.mode ≠ .load ∧ e.steep.b1 ∧ e.steep.b3 ∧ ¬ e.steep.b4 then
    let ok := s.thermos.recordOk
    let e := (Engine.settle s.caddy e).later.raiseIf (!ok) 0x15
    let d := e.straps.d
    let ws := if ok then s.thermos.words else thermosDefaults s.caddy e.image d
    let (t3, prof) := profileWord (nth 0#16 ws 3).toNat d
    let ws := ws.set 3 (BitVec.ofNat 16 t3)
    let ws := match e.faults.last with
      | some k => ws.set 5 (BitVec.ofNat 16 k.1)
      | none => ws
    let t1 := (nth 0#16 ws 1).toNat
    let muted := decide (32768 ≤ t1)
    let m := mixOfRecord (t1 % 256) muted (nth 0#16 ws 2).toNat prof
    let e := { e with
      mix := m, mixLive := m, prof := ⟨prof, Slide.still 1, none⟩
      faults := { e.faults with dirty := false } }
    let e := e.onSteep fun x => { x with b4 := true, index0 := t1 % 256, muted0 := muted }
    { s with thermos := ⟨ws, thermosCrc ws, false⟩, eng := Engine.settle s.caddy e }
  else s

/-! ## B9 (R163, R112, R285, R791, R824) -/

/-- PART_PREPARATION; `ws` are the words of the record in force. -/
def partPreparationOp (ws : List W16) (c : Memory) (e : Engine) : Engine :=
  if e.steep.b4 ∧ e.steep.b5 ∧ e.steep.b8 ∧ ¬ e.steep.b9 then
    let ps := (List.range 16).map fun i =>
      let w := (nth 0#16 ws (0x10 + i)).toNat
      let bank := w / 128 % 4
      let prog := w % 128
      let patch := resolvePatch e.image bank prog
      withBend c patch { nth PartRec.zero e.parts i with bank := bank, patchNo := prog, patch := patch }
    let fl (s : Nat) : W32 := slotF 0#32 one32 (sysSlot c e.image s)
    let set (m : MixRec) : MixRec :=
      { m with wet := [fl 0x583, fl 0x58C, fl 0x593], duckA := slotB (sysSlot c e.image 0x598), duckB := slotB (sysSlot c e.image 0x5A0) }
    { e with parts := ps, live := ps, mix := set e.mix, mixLive := set e.mixLive }.onSteep fun x => { x with b9 := true }
  else e

/-! ## STEEP_LATE, the chime, the receiver -/

/-- R173: F has not occurred by t0 + 250 ms. -/
def steepLateOp (t : Nat) (e : Engine) : Engine :=
  if e.mode ≠ .load ∧ ¬ e.served ∧ ¬ e.steep.late ∧ msT 250 ≤ (t : Rat) then
    ((e.at t).onSteep fun x => { x with late := true }).raise 0x04
  else e

/-- R178: the chime starts at strobe P on V240 to V255; it does not play with L below 256 (R453). -/
def chimeStart (c : Memory) (e : Engine) : Engine :=
  if slotB (sysSlot c e.image 0x006) ∧ 256 ≤ e.cond.limit then
    let n := e.stamp
    let rec0 (i : Nat) : SlotRec :=
      { id := e.cond.nextId + (i - 240), part := 0, note := 0, patch := none, vmode := 0, cls := 0, group := [i], state := .held, stamp := n
        order := e.cond.order + (i - 240), latched := false, relVel := 0 }
    let e := e.withCond fun k => { k with
      slots := (List.range k.slots.length).map fun i => if 240 ≤ i then ⟨some (rec0 i), 0⟩ else nth Slot.empty k.slots i
      nextId := k.nextId + 16, order := k.order + 16 }
    e.onSteep fun x => { x with chime := true, chimeEnd := e.strobe.last + msT 700 }
  else e

/-- The end of the chime has come: its instant lies before the next strobe (R15, R178). -/
def chimeDue (e : Engine) : Bool :=
  decide (e.steep.chimeEnd ≤ e.now) || (match nextStrobe e with | some t => decide (e.steep.chimeEnd < t) | none => false)

/-- CHIME_END: the 700 ms are over, whatever the family has been meanwhile (R178, R211); V240 to V255 become free. -/
def chimeEndOp (e : Engine) : Engine :=
  if e.steep.chime ∧ chimeDue e then
    let e := { e with now := max e.now e.steep.chimeEnd }.onSteep fun x => { x with chime := false }
    e.withCond fun k => { k with
      slots := k.slots.map fun s => match s.occ with
        | some r => if r.part = 0 then ⟨none, s.freeFrom⟩ else s
        | none => s }
  else e

/-- R180: how long RXD has to be high before the receiver is first armed; only time from crystal valid counts. -/
def armTime (s : Straps) : Time := if autobaud s then usT 1074 else usT 320

/-- RECEIVER_ARMED (R180). -/
def receiverArmedOp (t : Nat) (e : Engine) : Engine :=
  if e.kettle.crystal ∧ e.kettle.crystalAt + armTime e.straps < (t : Rat) + 1 then armReceiver (e.at t) else e

/-! ## The rows -/

/-- STRAP_BURST. -/
def execStrapBurst (a b c d : StrapVolts) (refs : StrapRefs) (s : State) : Answer := .next (s.playPins fun _ e => strapBurstOp a b c d refs e)

/-- DIRECTORY_CHECK. -/
def execDirectoryCheck (s : State) : Answer := .next (s.playEvents directoryCheckOp)

/-- THERMOS_STEP. -/
def execThermosStep (s : State) : Answer := .next (thermosStepOp s)

/-- CONTENT_SCAN. -/
def execContentScan (s : State) : Answer := .next (s.playEvents contentScanOp)

/-- PART_PREPARATION. -/
def execPartPreparation (s : State) : Answer := .next (s.play (partPreparationOp s.thermos.words))

/-- STEEP_LATE. -/
def execSteepLate (t : Nat) (s : State) : Answer := .next (s.playAt fun _ e => steepLateOp t e)

/-- CHIME_END. -/
def execChimeEnd (s : State) : Answer := .next (s.play fun _ e => chimeEndOp e)

/-- RECEIVER_ARMED. -/
def execReceiverArmed (t : Nat) (s : State) : Answer := .next (s.play fun _ e => receiverArmedOp t e)

end Sys2Proof.Machine
end

