-- ==== Sys2Proof/Machine/Health.lean ====
section
/-! DEFINITION. Health of the cells (21.3 to 21.5, 10.2): B5, roles, rotations, role moves, cell tests, parity errors, stalls, fences and returns. -/

namespace Sys2Proof.Machine

/-- A map of the health logic. -/
def Engine.onHealth (f : Health → Health) (e : Engine) : Engine := { e with health := f e.health }

/-- Cell `i` of the health logic mapped. -/
def Engine.mapCell (i : Nat) (f : CellHealth → CellHealth) (e : Engine) : Engine :=
  e.onHealth fun h => { h with cells := updAt f i h.cells }

/-- A cell before any test. -/
def CellHealth.none : CellHealth := ⟨.idle, false, 0, Option.none, false, 0, 0, 0, false⟩

/-- Cell `i`. -/
def Engine.cellAt (e : Engine) (i : Nat) : CellHealth := nth CellHealth.none e.health.cells i

/-! ## Roles (Table 10-2) -/

/-- The next number of the order of tests. -/
def Engine.testOrder (e : Engine) : Nat × Engine := (e.health.order, e.onHealth fun h => { h with order := h.order + 1 })

/-! ## B5 (R870 to R872, R898) -/

/-- MEADOW_SELF_TEST. -/
def selfTestOp (romOk dmemOk : Bool) (failed : List (Fin 192)) (e : Engine) : Engine :=
  if e.mode ≠ .load ∧ ¬ e.steep.b5 ∧ ¬ e.steep.halted then
    let e := e.later
    let bad (i : Nat) : Bool := failed.any fun x => x.val == i
    let cs := (List.range 192).map fun i =>
      if bad i then { CellHealth.none with role := .fenced, fences := 1 } else { CellHealth.none with passed := 1, fit := true }
    let f := ((List.range 192).filter bad).length
    let v := voiceCells f
    let e := e.onHealth fun h => { h with cells := placeRoles v 0 cs, order := 2, f := f, lost := decide (144 < f) }
    let e := e.withCond fun k => { k with limit := 2 * v }
    let e := e.onSteep fun x => { x with b5 := romOk && dmemOk, halted := !(romOk && dmemOk) }
    let e := e.raiseIf (!romOk) 0x16
    let e := e.raiseIf (!dmemOk) 0x17
    let e := (List.range f).foldl (fun e _ => e.raise 0x18) e
    let e := e.raiseIf (decide (13 ≤ f)) 0x19
    e.raiseIf (decide (144 < f)) 0x1D
  else e

/-! ## Spares (R875, R879) -/

/-- The cell takes part in a move that waits. -/
def inMove (e : Engine) (i : Nat) : Bool := e.health.moves.any fun m => m.src == i || m.dst == some i

/-- R875: the eligible spares; a cell that has returned takes no role before the next rotation (R420, log 91). -/
def eligible (e : Engine) (i : Nat) : Bool :=
  let x := e.cellAt i
  x.role == .spare && x.fit && !x.back && x.testing.isNone && !inMove e i

/-- The cell of `l` with the greatest key; the lower number of two. -/
def bestBy (key : Nat → Nat) : List Nat → Option Nat
  | [] => none
  | i :: r =>
    match bestBy key r with
    | none => some i
    | some j => if key j ≤ key i then some i else some j

/-- R874: the eligible spare whose last test passed most recently. -/
def bestSpare (e : Engine) : Option Nat := bestBy (fun i => (e.cellAt i).passed) ((List.range 192).filter (eligible e))

/-- R879: where no spare is eligible, the one whose test began most recently; a cell that has returned takes no role before the next rotation
(R420). -/
def testedSpare (e : Engine) : Option Nat :=
  bestBy (fun i => (e.cellAt i).began) ((List.range 192).filter fun i => (e.cellAt i).role == .spare && !(e.cellAt i).back && !inMove e i)

/-- R879: the cell that receives a role, its test abandoned where it has to be. -/
def receiver (e : Engine) : Option Nat × Engine :=
  match bestSpare e with
  | some i => (some i, e)
  | none =>
    match testedSpare e with
    | some i => (some i, e.mapCell i fun x => { x with testing := none })
    | none => (none, e)

/-! ## Fences -/

/-- The fences that are decided but wait for their boundary. -/
def fencesAhead (h : Health) : Nat := (h.moves.filter (·.fence)).length

/-- A fence has been decided or made, for the conductor to act on at the next strobe (R421, R877). -/
def fenceNews (e : Engine) : Engine := e.onHealth fun h => { h with news := h.news ++ [h.f + fencesAhead h] }

/-- A cell is fenced (R877 to R880, R882, R883). -/
def fenceCell (i : Nat) (e : Engine) : Engine :=
  if (e.cellAt i).role = .fenced then e
  else
    let e := e.mapCell i fun x => { x with role := .fenced, fit := false, testing := none, retest := false, passes := 0, fences := x.fences + 1 }
    let n := e.health.f + 1
    let first := decide (144 < n) && !e.health.lost
    let e := (e.onHealth fun h => { h with f := n, lost := h.lost || first }).raise 0x18
    e.raiseIf first 0x1D

/-- A role of a pair from slot `l` up goes out of service. -/
def Role.above (l : Nat) : Role → Bool
  | .voice k => decide (l ≤ 2 * k)
  | _ => false

/-- R421: the pairs from slot `l` up leave service; their cells become spares, and nothing is left of them to be moved. -/
def pairsOut (l : Nat) (e : Engine) : Engine :=
  e.onHealth fun h => { h with
    cells := h.cells.map fun x => if x.role.above l then { x with role := .spare, fit := false } else x
    moves := h.moves.map fun m => if m.role.above l then { m with role := .spare } else m }

/-- R421, R877 at a strobe: the conductor decides the fences since the last one. Each fence that raised f from 12 or more to 13 or more raises
CELL_SPARES_LOW, whatever a return has made of f since. -/
def decideFences (e : Engine) : Engine :=
  let news := e.health.news
  if news.isEmpty then e
  else
    let l := min e.cond.limit (2 * voiceCells (e.health.f + fencesAhead e.health))
    let e := e.onHealth fun h => { h with news := [] }
    let e := if l < e.cond.limit then pairsOut l (setLimit l e) else e
    (news.filter fun n => decide (13 ≤ n)).foldl (fun e _ => e.raise 0x19) e

/-- A parity move of the role of cell `i` is decided at the last strobe (R879). A rotation that was to move the role gives way to it. -/
def parityMove (i : Nat) (e : Engine) : Engine :=
  match e.health.moves.find? fun m => m.src == i with
  | some m =>
    if m.fence then e
    else
      fenceNews (e.onHealth fun h => { h with
        moves := h.moves.map fun m : Move => if m.src = i then { m with frame := e.target, fence := true } else m })
  | none =>
    let (d, e) := receiver e
    fenceNews (e.onHealth fun h => { h with moves := h.moves ++ [⟨i, d, (e.cellAt i).role, e.target, true, false, false⟩] })

/-- The cell holds a role (R879, R944). -/
def holdsRole (e : Engine) (i : Nat) : Bool :=
  match (e.cellAt i).role with
  | .voice _ => true
  | .bus _ => true
  | _ => false

/-- R399: a cell raises CELL_PARITY. A cell that holds no role and is not under test reads nothing (R944). -/
def parityRaise (i : Nat) (e : Engine) : Engine :=
  if holdsRole e i ∨ (e.cellAt i).testing.isSome then
    (e.onHealth fun h => { h with parity := if h.parity.contains i then h.parity else i :: h.parity }).raise 0x1A
  else e

/-! ## Stalls (R880) -/

/-- The cells whose work for a frame is still incomplete eight strobes after its own. -/
def stalledCells (e : Engine) : List Nat :=
  (e.fifo.frames.filter fun f => !f.done && decide (f.n + 8 ≤ e.strobe.n)).flatMap (·.stuck)

/-- The voices in the slots of pair `k` are cut by a decision stamped now; the other slots of their groups go on. -/
def cutPair (k : Nat) (e : Engine) : Engine :=
  let mine (i : Nat) : Bool := i / 2 == k
  let out := (heads e.occupied).filter fun r => r.group.any mine
  let e := out.foldl (fun e r => cutVoice { r with group := r.group.filter mine } e) e
  out.foldl (fun e r => (r.group.filter fun i => !mine i).foldl (fun e i =>
    e.mapSlot i fun q => { q with group := q.group.filter fun j => !mine j }) e) e

/-- R880, R897: cell `i` is found stalled at the last strobe. It is fenced, its voices are cut, and its role moves in the target frame of this
decision, also where a move of the role waits already; what the meadow has begun without it never completes. -/
def stallCell (i : Nat) (e : Engine) : Engine :=
  let role := (e.cellAt i).role
  let e := match role with
    | .voice k => cutPair k e
    | _ => e
  let e := match e.health.moves.find? fun m => m.src == i with
    | some m =>
      let e' := fenceCell i (e.onHealth fun h => { h with
        moves := h.moves.map fun m : Move => if m.src = i then { m with frame := e.target, fence := false, lost := true, stall := true } else m })
      if m.fence then e' else fenceNews e'
    | none =>
      let (d, e) := receiver e
      let m : Move := ⟨i, d, role, e.target, false, true, true⟩
      fenceNews (fenceCell i (e.onHealth fun h => { h with moves := h.moves ++ [m] }))
  let left (f : FrameRec) : Option FrameRec :=
    let l := f.stuck.filter fun j => j != i
    if l = f.stuck then some f else if l.isEmpty then none else some { f with stuck := l }
  { e with fifo := { e.fifo with frames := e.fifo.frames.filterMap left } }.raise 0x1B

/-- R879, R880, R943 at a strobe: the cells that raised CELL_PARITY and those that are found stalled, in ascending number. -/
def failStep (e : Engine) : Engine :=
  let stalls := stalledCells e
  let due := (List.range 192).filter fun i => (e.health.parity.contains i || stalls.contains i) && holdsRole e i
  let e := due.foldl (fun e i => if stalls.contains i then stallCell i e else parityMove i e) e
  e.onHealth fun h => { h with parity := h.parity.filter fun i => !due.contains i }

/-- A frame before the boundary of the move of a stalled role never completes (R880). -/
def neverDone (e : Engine) (f : Nat) : Bool := e.health.moves.any fun m => m.stall && decide (f < m.frame)

/-- R880 before frame `f` is computed: the states that a stalled cell held are gone. Which states a bus cell holds is not said; the model
restarts all of them (log 24) but the chorus phase, which no event but a reset restarts (R614). -/
def lostStates (f : Nat) (e : Engine) : Engine :=
  let due := e.health.moves.filter fun m => m.lost && decide (m.frame ≤ f)
  let e := due.foldl (fun e m =>
    match m.role with
    | .voice k =>
      let clear (v : SlotCell) : SlotCell := { v with word := 0#32, tailWord := 0#32, tail := none }
      { e with voices := updAt clear (2 * k) (updAt clear (2 * k + 1) e.voices) }
    | .bus _ => { e with bus := { Bus.zero with chPhase := e.bus.chPhase } }
    | _ => e) e
  e.onHealth fun h => { h with moves := h.moves.map fun m => if m.frame ≤ f then { m with lost := false } else m }

/-! ## Role moves (R419, R874, R879) -/

/-- The boundary of a move has come: the receiving cell has begun its frame. A cell that hangs cannot hand its state over (R880). -/
def moveDue (e : Engine) (m : Move) : Bool :=
  match e.fifo.next with
  | some n => decide (m.frame ≤ n) && (m.stall || !e.fifo.frames.any fun f => f.stuck.contains m.src)
  | none => false

/-- One move at its boundary. -/
def makeMove (m : Move) (e : Engine) : Engine :=
  let e := e.onHealth fun h => { h with moves := h.moves.filter fun x => x.src != m.src }
  let e := match m.dst with
    | some d =>
      if m.role = .spare then e
      else e.mapCell d fun x => { x with role := m.role, fit := false, testing := none }
    | none => e
  let e :=
    if m.stall then e
    else if m.fence then fenceCell m.src e
    else
      let (o, e) := e.testOrder
      e.mapCell m.src fun x => { x with role := .spare, fit := false, testing := some o, began := o, retest := false }
  if m.dst.isNone then
    e.onHealth fun h => { h with cells := placeRoles (min (voiceCells h.f) (e.cond.limit / 2)) 0 h.cells }
  else e

/-- A move of the role of `cell` waits and its boundary has come. -/
def roleMoveDue (cell : Nat) (e : Engine) : Bool := e.health.moves.any fun m => m.src == cell && moveDue e m

/-- ROLE_MOVE: the role of `cell` moves at its boundary. -/
def roleMoveOp (cell : Nat) (e : Engine) : Engine :=
  match e.health.moves.find? fun m => m.src == cell with
  | some m => if moveDue e m then makeMove m e.later else e
  | none => e

/-! ## Rotations (R422, R873, R874, R881, R882, R890, R891) -/

/-- The number of the rotation that falls at the last strobe. -/
def rotationNow (e : Engine) : Option Nat :=
  match e.steep.f with
  | some f =>
    let d := e.strobe.n - f
    if f < e.strobe.n ∧ d % 10000 = 0 ∧ e.health.rot < d / 10000 then some (d / 10000) else none
  | none => none

/-- R422: the lowest-numbered pair out of service returns, to a spare. -/
def pairBack (e : Engine) : Engine :=
  let k := e.cond.limit / 2
  let (d, e') := receiver e
  match d with
  | some i => (e'.mapCell i fun x => { x with role := .voice k, fit := false }).withCond fun c => { c with limit := c.limit + 2 }
  | none => e

/-- R422: a pair returns for every cell that has returned. -/
def pairsBack (e : Engine) : Engine :=
  (List.range (voiceCells (e.health.f + fencesAhead e.health) - e.cond.limit / 2)).foldl (fun e _ => pairBack e) e

/-- A test begins on cell `i`. -/
def beginTest (retest : Bool) (i : Nat) (e : Engine) : Engine :=
  let (o, e) := e.testOrder
  e.mapCell i fun x => { x with testing := some o, began := o, retest := retest }

/-- R874, R891: the working cell whose last passing test is the earliest, apart from a cell that has raised CELL_PARITY. -/
def rotationPick (e : Engine) : Option Nat :=
  let top := e.health.order
  bestBy (fun i => top - (e.cellAt i).passed)
    ((List.range 192).filter fun i => (e.cellAt i).role != .fenced && (e.cellAt i).testing.isNone && !inMove e i && !e.health.parity.contains i)

/-- ROTATION. -/
def rotationOp (e : Engine) : Engine :=
  match rotationNow e with
  | none => e
  | some r =>
    let e := pairsBack (e.onHealth fun h => { h with rot := r, cells := h.cells.map fun x => { x with back := false } })
    let e := match rotationPick e with
      | none => e
      | some i =>
        if (e.cellAt i).role = .spare then beginTest false i e
        else
          match bestSpare e with
          | some d => e.onHealth fun h => { h with moves := h.moves ++ [⟨i, some d, (e.cellAt i).role, e.target, false, false, false⟩] }
          | none => e
    if r % 96 = 0 then
      ((List.range 192).filter fun i => (e.cellAt i).role == .fenced && decide ((e.cellAt i).fences < 4)).foldl (fun e i => beginTest true i e) e
    else e

/-! ## Cell tests (R876, R877, R881, R882, R892) -/

/-- CELL_TEST_COMPLETE. A parity error during the test fails it (R879). Rows that end at one instant stand in the queue with the returns first
(R892, log 100). -/
def cellTestOp (cell : Nat) (passed : Bool) (e : Engine) : Engine :=
  let x := e.cellAt cell
  if x.testing.isNone then e
  else
    let e := e.later
    let ok := passed && !e.health.parity.contains cell
    let e := e.onHealth fun h => { h with parity := h.parity.filter fun i => i != cell }
    let (o, e) := e.testOrder
    if x.role = .fenced then
      if !ok then
        (e.mapCell cell fun x => { x with testing := none, passes := 0, fences := x.fences + 1 }).raise 0x18
      else if x.passes + 1 < 3 then e.mapCell cell fun x => { x with testing := none, passes := x.passes + 1 }
      else
        let e := e.mapCell cell fun x => { x with role := .spare, fit := true, back := true, testing := none, retest := false, passes := 0, passed := o }
        (e.onHealth fun h => { h with f := h.f - 1 }).raise 0x1C
    else if ok then e.mapCell cell fun x => { x with testing := none, passed := o, fit := true }
    else fenceNews (fenceCell cell e)

/-! ## What the cells hold moves with the roles (R32, R361, R408) -/

/-- The role is one that a voice pair or the bus work needs. -/
def Role.works : Role → Bool
  | .voice _ => true
  | .bus _ => true
  | _ => false

/-- The cell, among the 192 of Table 9-1, that holds role `r`. -/
def cellOf (r : Role) (l : List CellHealth) : Option Nat := if r.works then (l.take 192).findIdx? fun x => x.role == r else none

/-- The content of each cell after the roles went from `old` to those of the health logic: that of the cell which held its role before. A
role that no cell has held starts at +0 (R394, R880). Words that a cell has stored in the frame under way stay with its role. Where no role
has changed, nothing moves. -/
def State.moveCells (old : List CellHealth) (s : State) : State :=
  let new := s.eng.health.cells
  if new.map (·.role) = old.map (·.role) then s
  else
  let held (i : Nat) : Cell :=
    let r := (nth CellHealth.none new i).role
    match cellOf r old with
    | some j => nth Cell.zero s.cells j
    | none => if r.works then Cell.zero else nth Cell.zero s.cells i
  { s with
    cells := (List.range s.cells.length).map held
    dnew := s.dnew.map fun x => ((cellOf (nth CellHealth.none old x.1).role new).getD x.1, x.2) }

/-! ## The cell test (R876) -/

/-- The patterns of the cell test for the word at address `i`. -/
def testPattern (p : Fin 3) (i : Nat) : W32 := if p = 0 then 0x55555555#32 else if p = 1 then 0xAAAAAAAA#32 else BitVec.ofNat 32 i

/-- The memory of `n` words with its own address in every word. -/
def ownAddresses (n : Nat) : List (Nat × W32) := ((List.range n).drop 1).map fun i => (i, BitVec.ofNat 32 i)

/-- What a test leaves in local memory and in both banks: each word's own address, the last pattern that R876 names, with sound parity (log
101). -/
def Cell.tested (k : Cell) : Cell :=
  { k with
    localMem := ownAddresses 1024, active := ownAddresses 64, shadow := ownAddresses 64, badLocal := [], badActive := [], badShadow := [] }

/-- The results of Tables 9-5 to 9-7 by the number of the vector; vectors 26 and 27 give the word accessed and the address after it. -/
def testVector (n : Nat) : List W32 :=
  match n with
  | 1 => [0x40100000#32]
  | 2 => [0x3FC00005#32]
  | 3 => [0xBFC00001#32]
  | 4 => [0x3F800001#32]
  | 5 => [0x7F7FFFFF#32]
  | 9 => [0x4B800001#32]
  | 10 => [0xCB800000#32]
  | 11 => [0x000001#32]
  | 13 => [0x7FFFFF#32]
  | 14 => [0x800001#32]
  | 15 | 16 => [0xBF800000#32]
  | 17 => [0x3F7AF800#32]
  | 18 => [0xBF7AF800#32]
  | 20 => [0x40000000#32]
  | 21 => [0x40400000#32, 0x3FA00000#32]
  | 22 => [0xBF800000#32, 0xBFC00000#32]
  | 23 => [0xC3000000#32, 0#32]
  | 24 => [0x41200000#32]
  | 25 => [0x406#32, 0x3F000000#32]
  | 26 => [0x12C#32, 0x103#32]
  | 27 => [0x102#32, 0x12D#32]
  | _ => [0#32]

/-- What was read equals its signature, with correct parity; vector 0 does not exist. -/
def TestRead.ok : TestRead → Bool
  | .word _ i p got parity => parity && got == testPattern p i.val
  | .vector n got => n.val != 0 && got == testVector n.val
  | .signature b => b

/-! ## The rows -/

/-- MEADOW_SELF_TEST. -/
def execMeadowSelfTest (romOk dmemOk : Bool) (failed : List (Fin 192)) (s : State) : Answer :=
  .next (s.playEvents fun _ e => selfTestOp romOk dmemOk failed e)

/-- ROTATION. -/
def execRotation (s : State) : Answer := .next (s.playEvents fun _ e => rotationOp e)

/-- ROLE_MOVE. The content of a cell goes with its role (R32, R361, R408). -/
def execRoleMove (cell : Fin 192) (s : State) : Answer :=
  .next ((s.playEvents fun _ e => roleMoveOp cell.val e).moveCells s.eng.health.cells)

/-- CELL_TEST_COMPLETE: `reads` are the reads that the test reports; every other one equals its signature. -/
def execCellTestComplete (cell : Fin 192) (reads : List TestRead) (s : State) : Answer :=
  let ran := s.running && (s.eng.cellAt cell.val).testing.isSome
  let s := if ran then { s with cells := updAt Cell.tested cell.val s.cells } else s
  .next (s.playEvents fun _ e => cellTestOp cell.val (reads.all TestRead.ok) e)

end Sys2Proof.Machine
end

