-- ==== Sys2Proof/Machine/Datapath.lean ====
section
/-! DEFINITION. The datapath of one cell (09, Table 9-4): operands, result places, address registers, and the 23 operations. A cell computes
in reset as it does outside (R400; log 25); only the fault of a parity error needs the engine to run. -/

namespace Sys2Proof.Machine

/-! ## Address registers (§9.6) -/

/-- Words of local memory (Table 9-1). -/
def localSize : Nat := 1024

/-- Places of delay memory (R384). -/
def delaySize : Nat := 262144

/-- An address register that no role program has set. -/
def AddrReg.zero : AddrReg := ⟨0, 1024, 0, 0⟩

/-- Address register `j`. -/
def Cell.addrAt (k : Cell) (j : Nat) : AddrReg := nth AddrReg.zero k.addr j

/-- The role program sets register `j`. -/
def Cell.setAddr (j : Nat) (i : Option AddrInit) (k : Cell) : Cell :=
  match i with
  | some i => { k with addr := updAt (fun _ => ⟨i.b, i.len, i.a, i.s⟩) j k.addr }
  | none => k

/-- R383: the post-modify of register `j`. -/
def Cell.bump (j : Nat) (post : Bool) (k : Cell) : Cell :=
  if post then { k with addr := updAt (fun r => { r with a := postModify r.b r.len r.a r.s }) j k.addr } else k

/-- The word of a memory of `size` words that register `j` addresses. R383 may take a beyond the end of memory, where no rule says what is
accessed and R400 allows no stop: the address counts modulo the size of the memory (log 90). -/
def Cell.wordAt (k : Cell) (size j : Nat) : Nat := (k.addrAt j).a % size

/-! ## Operands (R362, R383, R387, R399) -/

/-- What the role program sets for an operand. -/
def opdPrep (x : Opd) (k : Cell) : Cell :=
  match x with
  | .via j i _ _ => k.setAddr j.val i
  | _ => k

/-- The parity bit of the word that an operand names is wrong: it is found so now, or was found so and the word has not been written since
(R399). -/
def opdBad (k : Cell) : Opd → Bool
  | .word _ => false
  | .reg i b => b || k.badActive.contains i.val
  | .mem i b => b || k.badLocal.contains i.val
  | .via j _ _ b => b || k.badLocal.contains (k.wordAt localSize j.val)

/-- The word of an operand; +0 with a parity error. -/
def opdRead (k : Cell) (x : Opd) : W32 :=
  if opdBad k x then 0#32
  else
    match x with
    | .word w => w
    | .reg i _ => sparseGet 0#32 k.active i.val
    | .mem i _ => sparseGet 0#32 k.localMem i.val
    | .via j _ _ _ => sparseGet 0#32 k.localMem (k.wordAt localSize j.val)

/-- The mark of a word whose parity bit is wrong. -/
def markBad (b : Bool) (i : Nat) (l : List Nat) : List Nat := if b ∧ ¬ l.contains i then i :: l else l

/-- A parity error found now stays with the word. -/
def opdMark (x : Opd) (k : Cell) : Cell :=
  match x with
  | .word _ => k
  | .reg i b => { k with badActive := markBad b i.val k.badActive }
  | .mem i b => { k with badLocal := markBad b i.val k.badLocal }
  | .via j _ _ b => { k with badLocal := markBad b (k.wordAt localSize j.val) k.badLocal }

/-- The post-modify of an operand. -/
def opdPost (x : Opd) (k : Cell) : Cell :=
  match x with
  | .via j _ p _ => k.bump j.val p
  | _ => k

/-! ## Result places -/

/-- What the role program sets for a result. -/
def dstPrep (d : Dst) (k : Cell) : Cell :=
  match d with
  | .via j i _ => k.setAddr j.val i
  | _ => k

/-- Word `i` of local memory is written, with its parity bit. -/
def Cell.setLocal (i : Nat) (w : W32) (k : Cell) : Cell :=
  { k with localMem := sparseSet 0#32 i w k.localMem, badLocal := k.badLocal.filter (· != i) }

/-- Word `i` of the shadow bank is written, with its parity bit. -/
def Cell.setShadow (i : Nat) (w : W32) (k : Cell) : Cell :=
  { k with shadow := sparseSet 0#32 i w k.shadow, badShadow := k.badShadow.filter (· != i) }

/-- The result is written. -/
def dstWrite (w : W32) (d : Dst) (k : Cell) : Cell :=
  match d with
  | .out => { k with out := w }
  | .reg i => k.setShadow i.val w
  | .mem i => k.setLocal i.val w
  | .via j _ _ => k.setLocal (k.wordAt localSize j.val) w

/-- The post-modify of a result. -/
def dstPost (d : Dst) (k : Cell) : Cell :=
  match d with
  | .via j _ p => k.bump j.val p
  | _ => k

/-- What the role program sets for a place of delay memory. -/
def placePrep (p : Place) (k : Cell) : Cell :=
  match p with
  | .via j i _ => k.setAddr j.val i
  | _ => k

/-- The address of a place. -/
def placeAddr (k : Cell) : Place → Nat
  | .fixed n => n.val
  | .via j _ _ => k.wordAt delaySize j.val

/-- The post-modify of a place. -/
def placePost (p : Place) (k : Cell) : Cell :=
  match p with
  | .via j _ q => k.bump j.val q
  | _ => k

/-! ## One operation (R387) -/

/-- Cell `i` of the datapath. -/
def State.cellAt (s : State) (i : Nat) : Cell := nth Cell.zero s.cells i

/-- Cell `i` computes: a fenced cell and a spare do so only under test (R878, R944). -/
def State.computes (s : State) (i : Nat) : Bool :=
  let x := s.eng.cellAt i
  x.testing.isSome || (x.role != .fenced && x.role != .spare)

/-- Cell `i` becomes `k` by an operation; a parity error that the operation met is raised. -/
def State.putCell (i : Nat) (k : Cell) (bad : Bool) (s : State) : State :=
  if s.computes i then
    let s := { s with cells := updAt (fun _ => k) i s.cells }
    if bad then s.playEvents fun _ e => parityRaise i e.later else s
  else s

/-- The cell after the settings of the role program. -/
def prepAll (xs : List Opd) (k : Cell) : Cell := xs.foldl (fun k x => opdPrep x k) k

/-- The cell after the parity errors that the operands meet. -/
def markAll (xs : List Opd) (k : Cell) : Cell := xs.foldl (fun k x => opdMark x k) k

/-- The cell after the post-modifies of the operands. -/
def postAll (xs : List Opd) (k : Cell) : Cell := xs.foldl (fun k x => opdPost x k) k

/-- An operation on the accumulator: `f` takes the accumulator and the operand words. -/
def accOp (i : Nat) (xs : List Opd) (f : Dy → List W32 → Dy) (s : State) : Answer :=
  let k := prepAll xs (s.cellAt i)
  .next (s.putCell i (postAll xs { markAll xs k with acc := f k.acc (xs.map (opdRead k)) }) (xs.any (opdBad k)))

/-- An operation that gives a word: `f` takes the accumulator and the operand words. -/
def wordOp (i : Nat) (xs : List Opd) (d : Dst) (f : Dy → List W32 → W32) (s : State) : Answer :=
  let k := dstPrep d (prepAll xs (s.cellAt i))
  .next (s.putCell i (dstPost d (postAll xs (dstWrite (f k.acc (xs.map (opdRead k))) d (markAll xs k)))) (xs.any (opdBad k)))

/-- R385: what cell `i` reads at place `a` of delay memory. -/
def delayRead (s : State) (i a : Nat) : W24 :=
  match s.dnew.reverse.find? fun x => x.1 == i && x.2.1 == a with
  | some x => x.2.2
  | none => delayGet s.eng.dmem a

/-- The first and the second operand word. -/
def arg1 (v : List W32) : W32 := nth 0#32 v 0

/-- The second operand word. -/
def arg2 (v : List W32) : W32 := nth 0#32 v 1

/-- The third operand word. -/
def arg3 (v : List W32) : W32 := nth 0#32 v 2

/-! ## The operations (Table 9-4) -/

/-- CLR: A is +0. -/
def execClr (cell : Fin 192) (s : State) : Answer := accOp cell.val [] (fun _ _ => Dy.zero) s

/-- LDA x. -/
def execLda (cell : Fin 192) (x : Opd) (s : State) : Answer := accOp cell.val [x] (fun _ v => accLda (arg1 v)) s

/-- MUL x, y. -/
def execMul (cell : Fin 192) (x y : Opd) (s : State) : Answer := accOp cell.val [x, y] (fun _ v => accMul (arg1 v) (arg2 v)) s

/-- MAC x, y (R372). -/
def execMac (cell : Fin 192) (x y : Opd) (s : State) : Answer := accOp cell.val [x, y] (fun a v => accMac a (arg1 v) (arg2 v)) s

/-- MSU x, y (R372). -/
def execMsu (cell : Fin 192) (x y : Opd) (s : State) : Answer := accOp cell.val [x, y] (fun a v => accMsu a (arg1 v) (arg2 v)) s

/-- ADD x (R373). -/
def execAdd (cell : Fin 192) (x : Opd) (s : State) : Answer := accOp cell.val [x] (fun a v => accAdd a (arg1 v)) s

/-- STF (R375). -/
def execStf (cell : Fin 192) (d : Dst) (s : State) : Answer := wordOp cell.val [] d (fun a _ => accStf a) s

/-- STX (R376, R384, R385): the word goes to a place of delay memory, or stays in the output word. -/
def execStx (cell : Fin 192) (d : Option Place) (s : State) : Answer :=
  match d with
  | none => wordOp cell.val [] .out (fun a _ => (accStx a).setWidth 32) s
  | some p =>
    let k := placePrep p (s.cellAt cell.val)
    .next { s.putCell cell.val (placePost p k) false with
      dnew := s.dnew ++ if s.computes cell.val then [(cell.val, placeAddr k p, accStx k.acc)] else [] }

/-- NEG x. -/
def execNeg (cell : Fin 192) (x : Opd) (d : Dst) (s : State) : Answer := wordOp cell.val [x] d (fun _ v => fNeg (arg1 v)) s

/-- ABS x. -/
def execAbs (cell : Fin 192) (x : Opd) (d : Dst) (s : State) : Answer := wordOp cell.val [x] d (fun _ v => fAbs (arg1 v)) s

/-- MIN x, y (R381). -/
def execMin (cell : Fin 192) (x y : Opd) (d : Dst) (s : State) : Answer := wordOp cell.val [x, y] d (fun _ v => fMin (arg1 v) (arg2 v)) s

/-- MAX x, y (R381). -/
def execMax (cell : Fin 192) (x y : Opd) (d : Dst) (s : State) : Answer := wordOp cell.val [x, y] d (fun _ v => fMax (arg1 v) (arg2 v)) s

/-- SEL c, x, y (R381). -/
def execSel (cell : Fin 192) (c x y : Opd) (d : Dst) (s : State) : Answer :=
  wordOp cell.val [c, x, y] d (fun _ v => fSel (arg1 v) (arg2 v) (arg3 v)) s

/-- NORM x (R377). -/
def execNorm (cell : Fin 192) (x : Opd) (d : Dst) (s : State) : Answer := wordOp cell.val [x] d (fun _ v => fNorm (arg1 v)) s

/-- EXP x (R377). -/
def execExp (cell : Fin 192) (x : Opd) (d : Dst) (s : State) : Answer := wordOp cell.val [x] d (fun _ v => fExp (arg1 v)) s

/-- SCALE x, n (R378, R405). -/
def execScale (cell : Fin 192) (x n : Opd) (d : Dst) (s : State) : Answer := wordOp cell.val [x, n] d (fun _ v => fScale (arg1 v) (arg2 v)) s

/-- ITF k: the operand word is a two's-complement integer. -/
def execItf (cell : Fin 192) (k : Opd) (d : Dst) (s : State) : Answer := wordOp cell.val [k] d (fun _ v => fItf (arg1 v).toInt) s

/-- FTP x (R379). -/
def execFtp (cell : Fin 192) (x : Opd) (d : Dst) (s : State) : Answer := wordOp cell.val [x] d (fun _ v => fFtp (arg1 v)) s

/-- PADD p, q: the operand words are unsigned integers. -/
def execPadd (cell : Fin 192) (p q : Opd) (d : Dst) (s : State) : Answer := wordOp cell.val [p, q] d (fun _ v => arg1 v + arg2 v) s

/-- PHS p, k (R380): the index goes to `d` as an unsigned integer (R382), the fraction to the second output word. -/
def execPhs (cell : Fin 192) (p : Opd) (k : Fin 17) (d : Dst) (s : State) : Answer :=
  let c := dstPrep d (prepAll [p] (s.cellAt cell.val))
  let v := opdRead c p
  let c' := dstWrite (BitVec.ofNat 32 (phsIndex v k.val)) d { opdMark p c with out2 := phsFrac v k.val }
  .next (s.putCell cell.val (dstPost d (opdPost p c')) (opdBad c p))

/-- LDX (R366, R383 to R385, R411). Delay memory carries no parity bit (R399). -/
def execLdx (cell : Fin 192) (q : Spot) (init : Option AddrInit) (d : Dst) (s : State) : Answer :=
  let p := q.place init
  let k := dstPrep d (placePrep p (s.cellAt cell.val))
  .next (s.putCell cell.val (dstPost d (placePost p (dstWrite (ldx (delayRead s cell.val (placeAddr k p))) d k))) false)

/-- LD16 (R366): the 16-bit sample at byte `a` of the caddy, low byte first (R6); the byte after the last one is byte 0 (log 90). -/
def execLd16 (cell : Fin 192) (a : Fin 4194304) (d : Dst) (s : State) : Answer :=
  wordOp cell.val [] d (fun _ _ => ld16 (BitVec.ofNat 16 (leNat [caddyGet s.caddy a.val, caddyGet s.caddy ((a.val + 1) % 4194304)]))) s

/-- LDU (R366, R367): the µ-law byte at byte `a` of the caddy. -/
def execLdu (cell : Fin 192) (a : Fin 4194304) (d : Dst) (s : State) : Answer := wordOp cell.val [] d (fun _ _ => ldu (caddyGet s.caddy a.val)) s

end Sys2Proof.Machine
end

