-- ==== Sys2Proof/Machine/Fx.lean ====
section
/-! DEFINITION. Second-order sections (13.6), detectors (13.9), delay lines in delay memory (Table 14-3), and the chorus, delay and reverb
(14.3). -/

namespace Sys2Proof.Machine

/-! ## Second-order sections (R584 to R589, Table 13-5) -/

/-- The coefficients b0, b1, b2, a1, a2 of a section. -/
structure SecCoef where
  b0 : W32
  b1 : W32
  b2 : W32
  a1 : W32
  a2 : W32
deriving DecidableEq, Repr

/-- A section record (Table 20-3). -/
structure SecRec where
  ty : Nat
  f : W32
  q : W32
  g : W32
  a1 : W32
  a2 : W32
deriving DecidableEq, Repr

/-- The section record at slot `s` of the system section. -/
def sysSection (c : Memory) (im : Image) (s : Nat) : SecRec :=
  let w (o : Nat) : W32 := sysSlot c im (s + o)
  ⟨slotE 11 0 (w 0), w 1, w 2, w 3, w 4, w 5⟩

/-- R586, Table 13-5: the coefficients of types 1 to 10 at sampling rate `fs`. Every ⟨b / a0⟩ is formed from the exact value. -/
def shapeCoef (fs : Rat) (r : SecRec) : SecCoef :=
  let f := f32Rat (fClamp (q32 10) (ofRat (45 / 100 * fs)) r.f)
  let q := fxOfF32 (fClamp (q32 1 10) (q32 20) r.q)
  let gdb := f32Rat (fClamp (q32 (-24)) (q32 24) r.g)
  let turn := f / fs
  let one := fxOne
  let cs := fxCosTurn turn
  let al := fxDiv (fxSinTurn turn) (2 * q)
  let A := fxExp10 (fxOfRat (gdb / 40))
  let K := fxTanHalf turn
  let mk (b0 b1 b2 a0 a1 a2 : Int) : SecCoef :=
    let d (x : Int) : W32 := fxRound (fxDiv x a0)
    ⟨d b0, d b1, d b2, d a1, d a2⟩
  match r.ty with
  | 1 => mk (one + fxMul al A) (-2 * cs) (one - fxMul al A) (one + fxDiv al A) (-2 * cs) (one - fxDiv al A)
  | 2 =>
    let sa := 2 * fxMul (fxExp10 (fxOfRat (gdb / 80))) al
    let p := fxMul (A - one) cs
    let q := fxMul (A + one) cs
    mk (fxMul A (A + one - p + sa)) (2 * fxMul A (A - one - q)) (fxMul A (A + one - p - sa)) (A + one + p + sa) (-2 * (A - one + q))
      (A + one + p - sa)
  | 3 =>
    let sa := 2 * fxMul (fxExp10 (fxOfRat (gdb / 80))) al
    let p := fxMul (A - one) cs
    let q := fxMul (A + one) cs
    mk (fxMul A (A + one + p + sa)) (-2 * fxMul A (A - one + q)) (fxMul A (A + one + p - sa)) (A + one - p + sa) (2 * (A - one - q))
      (A + one - p - sa)
  | 4 => mk ((one - cs) / 2) (one - cs) ((one - cs) / 2) (one + al) (-2 * cs) (one - al)
  | 5 => mk ((one + cs) / 2) (-(one + cs)) ((one + cs) / 2) (one + al) (-2 * cs) (one - al)
  | 6 => mk al 0 (-al) (one + al) (-2 * cs) (one - al)
  | 7 => mk one (-2 * cs) one (one + al) (-2 * cs) (one - al)
  | 8 => mk (one - al) (-2 * cs) (one + al) (one + al) (-2 * cs) (one - al)
  | 9 => mk K K 0 (one + K) (K - one) 0
  | _ => mk one (-one) 0 (one + K) (K - one) 0

/-- The coefficients of a section that is on; none for type 0 (R585). -/
def secCoef (fs : Rat) (r : SecRec) : Option SecCoef :=
  if r.ty = 0 ∨ 11 < r.ty then none
  else if r.ty = 11 then some ⟨r.f, r.q, r.g, r.a1, r.a2⟩
  else some (shapeCoef fs r)

/-- R584, R585: one frame of a section. -/
def secStep (k : Option SecCoef) (x : W32) (s : Sec) : W32 × Sec :=
  match k with
  | none => (x, Sec.zero)
  | some k =>
    let y := line [.mac k.b0 x, .mac k.b1 s.x1, .mac k.b2 s.x2, .msu k.a1 s.y1, .msu k.a2 s.y2]
    (y, ⟨x, s.x1, y, s.y1⟩)

/-- A cascade in ascending index. -/
def cascade : List (Option SecCoef) → List Sec → W32 → W32 × List Sec
  | [], ss, x => (x, ss)
  | _ :: _, [], x => (x, [])
  | k :: ks, s :: ss, x =>
    let (y, s') := secStep k x s
    let (z, ss') := cascade ks ss y
    (z, s' :: ss')

/-- A section of fixed parameters. -/
def fixedSec (ty : Nat) (f q : W32) : SecRec := ⟨ty, f, q, 0#32, 0#32, 0#32⟩

/-- Q 0.7071. -/
def q7071 : W32 := q32 7071 10000

/-- Table 5-2: the ROM safe EQ. -/
def safeEq (fs : Rat) : List (Option SecCoef) := [secCoef fs (fixedSec 5 (q32 150) q7071), secCoef fs (fixedSec 4 (q32 6000) q7071)]

/-! ## Detectors (R592 to R594) -/

/-- d(τ) at sampling rate `fs`. -/
def detD (fs tau : Rat) : W32 := fxRound (fxExp (fxOfRat (-1 / (tau * fs))))

/-- a(τ) at sampling rate `fs`. -/
def detA (fs tau : Rat) : W32 := fxRound (fxOne - fxExp (fxOfRat (-1 / (tau * fs))))

/-- A peak detector. -/
def peakStep (fs tau : Rat) (x p : W32) : W32 := fMax (fAbs x) (fMul (detD fs tau) p)

/-- An RMS detector. -/
def rmsStep (fs tau : Rat) (x m : W32) : W32 :=
  let s := fMul x x
  let a := detA fs tau
  line [.val m, .mac a s, .msu a m]

/-- An envelope detector. -/
def envStep (fs ta tr : Rat) (x e : W32) : W32 :=
  let v := fAbs x
  let c := detA fs (if fLt e v then ta else tr)
  line [.val e, .mac c v, .msu c e]

/-- The lowest reading, -200.0 dB. -/
def dbFloor : W32 := q32 (-200)

/-- ⟨n log10 2⟩. -/
def logTen (n : Int) : W32 := fxRound (n * fxDiv fxLn2 fxLn10)

/-- R593: the reading of a peak or envelope state. -/
def peakDb (p : W32) : W32 := if (f32Val p).m = 0 then dbFloor else fMax dbFloor (fMul (logTen 20) (fL2 p))

/-- R593: the reading of an RMS state. -/
def rmsDb (m : W32) : W32 := if (f32Val m).m = 0 then dbFloor else fMax dbFloor (fMul (logTen 10) (fL2 (fMul (q32 2) m)))

/-! ## Delay lines in delay memory (R384 to R387, Table 14-3) -/

/-- The place of a line with `len` places from `base` that is written in frame `f`; lines wrap by frame number. -/
def ringPlace (base len f : Nat) : Nat := base + f % len

/-- The word written `d` frames before frame `f`. -/
def ringRead (m : DelayMem) (base len f d : Nat) : W32 := ldx (delayGet m (base + (f + len - d % len) % len))

/-- The word written in frame `f`. -/
def ringWrite (base len f : Nat) (w : W24) (m : DelayMem) : DelayMem := delaySet m (ringPlace base len f) w

/-- STX of a word. -/
def stxWord (x : W32) : W24 := accStx (accLda x)

/-- Program delay of channel `n`. -/
def progBase (n : Nat) : Nat := 512 + 16384 * n

/-- Alignment delay of channel `n`. -/
def alignBase (n : Nat) : Nat := 66048 + 256 * n

/-- Look-ahead of channel `n`. -/
def lookBase (n : Nat) : Nat := 67072 + 256 * n

/-- Chorus line of side `k`. -/
def chorusBase (k : Nat) : Nat := 68096 + 4096 * k

/-- Delay line of side `k`. -/
def delayBase (k : Nat) : Nat := 76288 + 65536 * k

/-- The reverb's pre-delay. -/
def preBase : Nat := 207360

/-- Table 14-4, the all-passes and the network: lengths. -/
def reverbLen : List Nat := [142, 379, 557, 887, 2053, 2371, 2749, 3119, 3463, 3821, 4217, 4603]

/-- The first place of reverb line `i` (0 to 3 all-passes, 4 to 11 the network). -/
def reverbBase (i : Nat) : Nat := preBase + 9600 + (reverbLen.take i).sum

/-- R631: the alignment and look-ahead places read +0. -/
def clearChainLines (m : DelayMem) : DelayMem := m.filter fun p => decide (p.1 < 66048) || decide (68096 ≤ p.1)

/-! ## Effects (R614 to R616, R845, R846) -/

/-- An effects slot in milliseconds as ⟨t / 1000⟩ s (R845). -/
def msSlot (w : W32) : W32 := ofRat (f32Rat w / 1000)

/-- R614: what the phase of the chorus advances by in a frame. -/
def chorusInc (c : Memory) (im : Image) (fam : Fam) : W32 :=
  fFtp (ofRat (f32Rat (slotF (q32 5 100) (q32 5) (sysSlot c im 0x582)) / (fsInt fam : Rat)))

/-- R614: the phase of the chorus advances in each frame from t0 on, in those that the meadow does not compute in full as well. -/
def Engine.chorusOn (c : Memory) (e : Engine) : Engine :=
  { e with bus := { e.bus with chPhase := e.bus.chPhase + chorusInc c e.image e.kettle.fam } }

/-- R614: the chorus. The sends, the phase of the left line, the wet level; the returns, the phase and the delay memory after it. -/
def chorusFrame (c : Memory) (im : Image) (fam : Fam) (f : Nat) (wet sl sr p : W32) (old m : DelayMem) : (W32 × W32) × W32 × DelayMem :=
  let fs : Rat := fsInt fam
  let d0 := slotF (q32 2) (q32 20) (sysSlot c im 0x580)
  let dm := slotF 0#32 (q32 10) (sysSlot c im 0x581)
  let dm := if fLt (fSub d0 dm) one32 then fSub d0 one32 else dm
  let c0 := ofRat (f32Rat (msSlot d0) * fs)
  let cm := ofRat (f32Rat (msSlot dm) * fs)
  let side (k : Nat) (p : W32) : W32 :=
    let d := line [.val c0, .mac cm (look romSN p 12)]
    let j := (f32Val d).floor.toNat
    let h := fSub d (fItf j)
    let a := ringRead old (chorusBase k) 4096 f j
    let b := ringRead old (chorusBase k) 4096 f (j + 1)
    fMul wet (line [.val a, .mac h b, .msu h a])
  let m := ringWrite (chorusBase 0) 4096 f (stxWord sl) (ringWrite (chorusBase 1) 4096 f (stxWord sr) m)
  ((side 0 p, side 1 (p + 0x40000000#32)), p + chorusInc c im fam, m)

/-- R615: the delay. -/
def delayFrame (c : Memory) (im : Image) (fam : Fam) (f : Nat) (wet sl sr : W32) (ss : List Sec) (old m : DelayMem) :
    (W32 × W32) × List Sec × DelayMem :=
  let td := msSlot (slotF one32 (q32 680) (sysSlot c im 0x588))
  let n := min (max (countN0 fam (f32Rat td)) 1) 65535
  let fb := slotF 0#32 (q32 95 100) (sysSlot c im 0x589)
  let k := secCoef (fsInt fam) (fixedSec 9 (slotF (q32 1000) (q32 20000) (sysSlot c im 0x58A)) q7071)
  let ping := slotB (sysSlot c im 0x58B)
  let r (i : Nat) : W32 := ringRead old (delayBase i) 65536 f n
  let (q0, s0) := secStep k (r 0) (nth Sec.zero ss 0)
  let (q1, s1) := secStep k (r 1) (nth Sec.zero ss 1)
  let put (x q : W32) : W24 := accStx (lineAcc [.val x, .mac fb q])
  let m := ringWrite (delayBase 0) 65536 f (put sl (if ping then q1 else q0)) m
  let m := ringWrite (delayBase 1) 65536 f (put sr (if ping then q0 else q1)) m
  ((fMul wet (r 0), fMul wet (r 1)), [s0, s1], m)

/-- One all-pass of R616: its output and the delay memory. -/
def allPass (i f : Nat) (old : DelayMem) (x : W32) (m : DelayMem) : W32 × DelayMem :=
  let len := nth 1 reverbLen i
  let g := q32 7 10
  let z := ringRead old (reverbBase i) len f len
  let w := line [.val x, .mac g z]
  (line [.val z, .msu g w], ringWrite (reverbBase i) len f (stxWord w) m)

/-- The number of set bits of `i AND j` for `i, j < 8` is even. -/
def evenBits (i j : Nat) : Bool := ((Nat.land i j) % 2 + (Nat.land i j) / 2 % 2 + (Nat.land i j) / 4 % 2) % 2 == 0

/-- R616: the reverb. -/
def reverbFrame (c : Memory) (im : Image) (fam : Fam) (f : Nat) (wet sl sr : W32) (ss : List Sec) (old m : DelayMem) :
    (W32 × W32) × List Sec × DelayMem :=
  let fs : Rat := fsInt fam
  let half := q32 1 2
  let u := line [.mac half sl, .mac half sr]
  let tp := min (countN0 fam (f32Rat (msSlot (slotF 0#32 (q32 100) (sysSlot c im 0x592))))) 9600
  let x := if tp = 0 then u else ringRead old preBase 9600 f tp
  let m := ringWrite preBase 9600 f (stxWord u) m
  let (x, m) := (List.range 4).foldl (fun (a : W32 × DelayMem) i => allPass i f old a.1 a.2) (x, m)
  let t60 := f32Rat (slotF (q32 1 5) (q32 10) (sysSlot c im 0x590))
  let k := secCoef fs (fixedSec 9 (slotF (q32 1000) (q32 20000) (sysSlot c im 0x591)) q7071)
  let rows := (List.range 8).map fun i =>
    let len := nth 1 reverbLen (4 + i)
    let z := ringRead old (reverbBase (4 + i)) len f len
    let (d, s) := secStep k z (nth Sec.zero ss i)
    let g := fE2 (fxRound (fxMul (fxDiv fxLn10 fxLn2) (fxOfRat (-3 * (len : Rat) / (t60 * fs)))))
    (z, s, fMul g d)
  let h := fxRound (fxSqrt (fxRat 1 8))
  let es := rows.map (·.2.2)
  let m := (List.range 8).foldl (fun m i =>
    let ts := (List.range 8).map fun j => if evenBits i j then Term.mac h (nth 0#32 es j) else Term.msu h (nth 0#32 es j)
    ringWrite (reverbBase (4 + i)) (nth 1 reverbLen (4 + i)) f (accStx (lineAcc (.val x :: ts))) m) m
  let zs := rows.map (·.1)
  let out (o : Nat) : W32 := line ((List.range 4).map fun i => Term.mac half (nth 0#32 zs (2 * i + o)))
  ((fMul wet (out 0), fMul wet (out 1)), rows.map (·.2.1), m)

end Sys2Proof.Machine
end

