-- ==== Sys2Proof/Machine/Chain.lean ====
section
/-! DEFINITION. The speaker chain of an output channel (14.6, 14.7): DC block, sections, trim and volume, alignment, limiter, excursion and
thermal protection. -/

namespace Sys2Proof.Machine

/-- The profile's source of channel `n` (R850). -/
def chainSource (c : Memory) (im : Image) (prof n : Nat) : Nat := slotE 5 0 (sysSlot c im (0x600 + 0x10 * prof + n))

/-- The first slot of the chain record of channel `n` (R850, R851). -/
def chainRecord (c : Memory) (im : Image) (prof n : Nat) : Nat :=
  0x700 + 0x80 * slotE 17 0 (sysSlot c im (0x600 + 0x10 * prof + 4 + n))

/-- What a chain reads in one frame: system section, family, frame, profile, ML, MR and the direct sources, Gm, gM, gP, Tj in °C. -/
structure ChainEnv where
  c : Memory
  im : Image
  fam : Fam
  frame : Nat
  prof : Nat
  ml : W32
  mr : W32
  d2 : W32
  d3 : W32
  vol : W32
  gM : W32
  gP : W32
  tj : W32

/-- Step 1 of R625. -/
def chainIn (x : ChainEnv) (n : Nat) : W32 :=
  match chainSource x.c x.im x.prof n with
  | 1 => x.ml
  | 2 => x.mr
  | 3 => line [.mac (q32 1 2) x.ml, .mac (q32 1 2) x.mr]
  | 4 => x.d2
  | 5 => x.d3
  | _ => 0#32

/-- An F32 slot of a chain record. -/
def recF (x : ChainEnv) (r o : Nat) (lo hi : W32) : W32 := slotF lo hi (sysSlot x.c x.im (r + o))

/-- The sections of a channel (R625 step 3); with excursion protection section 15 is the high-pass at fhp (R629). -/
def chainSections (x : ChainEnv) (r : Nat) (fhp : Option W32) : List (Option SecCoef) :=
  (List.range 16).map fun j =>
    if j = 15 ∧ slotB (sysSlot x.c x.im (r + 0x66)) then
      secCoef (fsInt x.fam) (fixedSec 5 (fhp.getD (recF x r 0x6B (q32 10) (q32 200))) q7071)
    else secCoef (fsInt x.fam) (sysSection x.c x.im (r + 6 * j))

/-- R626: La. -/
def lookAhead (code : Nat) : Nat := nth 0 [0, 48, 96, 192] code

/-- The least of `n` values, newest first, missing ones counting as 1.0. -/
def minRun (n : Nat) (l : List W32) : W32 := (List.range n).foldl (fun a k => fMin a (nth one32 l k)) one32

/-- R626, R627: the limiter. The result is the applied gain and the state after it. -/
def limiterGain (x : ChainEnv) (r la : Nat) (inp : W32) (k : Chain) : W32 × Chain :=
  let fs : Rat := fsInt x.fam
  let tau := f32Rat (recF x r 0x64 one32 (q32 2000)) / 1000
  let p := peakStep fs tau inp k.lim
  let th := recF x r 0x63 (q32 (-30)) 0#32
  let gt := if (f32Val p).m = 0 then one32 else fE2 (fMin 0#32 (line [.mac th c20, .sub (fL2 p)]))
  let k := { k with lim := p }
  if la = 0 then (gt, k)
  else
    let gts := (gt :: k.gts).take (la + 1)
    let h := minRun (la + 1) gts
    let hs := (h :: k.hs).take (la + 1)
    let w := q32 1 (la + 1)
    let sum := macSum ((List.range (la + 1)).map fun i => (w, nth one32 hs (la - i)))
    (fMin (nth one32 gts la) sum, { k with gts := gts, hs := hs })

/-- R591: one DEC8 output from the inputs, newest first. -/
def dec8 (h : List W32) : W32 := macSum ((List.range 161).map fun n => (h8Coef n, nth 0#32 h n))

/-- R629 at a DEC8 output of the limiter input. -/
def excursionStep (x : ChainEnv) (r : Nat) (k : Chain) : Chain :=
  let fs : Rat := (fsInt x.fam : Rat) / 8
  let coef := secCoef fs (fixedSec 4 (recF x r 0x67 (q32 20) (q32 200)) (recF x r 0x68 (q32 3 10) (q32 2)))
  let (z, s) := secStep coef (dec8 k.limIn) k.excZ
  let y := fMul (fAbs z) (recF x r 0x69 (q32 1 100) (q32 20))
  let X := peakStep fs (1 / 10) y k.excX
  let fb := recF x r 0x6B (q32 10) (q32 200)
  let lim := recF x r 0x6A (q32 1 10) (q32 20)
  let f := if (f32Val X).m = 0 then fb else fMul fb (fE2 (fMin (q32 2) (fMax 0#32 (fSub (fL2 X) (fL2 lim)))))
  { k with excZ := s, excX := X, fhp := some f }

/-- R630 at a DEC8 output of the channel's sample. -/
def thermalStep (x : ChainEnv) (r : Nat) (k : Chain) : Chain :=
  let fs : Rat := (fsInt x.fam : Rat) / 8
  let m := rmsStep fs (f32Rat (recF x r 0x6F (q32 1 1000) (q32 10))) (dec8 k.outs) k.pwr
  let rise := fMul (recF x r 0x6E (q32 1 10) (q32 50)) (fMul (q32 2) m)
  let tc := line [.val x.tj, .val (recF x r 0x71 0#32 (q32 60)), .mac rise (recF x r 0x6D (q32 1 10) (q32 200))]
  let above := fMul (q32 1 2) (fSub tc (recF x r 0x70 (q32 60) (q32 250)))
  { k with pwr := m, gtGoal := fNeg (fMin (q32 12) (fMax 0#32 above)) }

/-- A level moved towards a goal by at most one step each way. -/
def moveTo (v goal down up : W32) : W32 := if fLt goal v then fMax goal (fSub v down) else fMin goal (fAdd v up)

/-- R625, R627, R629, R630 for channel `n` in one frame: its sample, the chain and the delay memory after it. -/
def chainFrame (x : ChainEnv) (n : Nat) (old : DelayMem) (k : Chain) (m : DelayMem) : W32 × Chain × DelayMem :=
  let fs : Rat := fsInt x.fam
  let r := chainRecord x.c x.im x.prof n
  let f := x.frame
  let (s, dc) := secStep (secCoef fs (fixedSec 10 (q32 10) q7071)) (chainIn x n) k.dc
  let (s, secs) := cascade (chainSections x r k.fhp) k.secs s
  let trim := dbGain (recF x r 0x60 (q32 (-24)) 0#32)
  let ct := if slotB (sysSlot x.c x.im (r + 0x61)) then fNeg trim else trim
  let s := fMul (fMul (fMul s ct) x.vol) x.gM
  let an := slotU 0 255 (sysSlot x.c x.im (r + 0x62))
  let a := if an = 0 then s else ringRead old (alignBase n) 256 f an
  let m := if an = 0 then m else ringWrite (alignBase n) 256 f (stxWord s) m
  let la := lookAhead (slotU 0 3 (sysSlot x.c x.im (r + 0x65)))
  let (g, k) := limiterGain x r la a { k with dc := dc, secs := secs }
  let d := if la = 0 then a else ringRead old (lookBase n) 256 f la
  let m := if la = 0 then m else ringWrite (lookBase n) 256 f (stxWord a) m
  let th := slotB (sysSlot x.c x.im (r + 0x6C))
  let gT := if th then moveTo k.gT k.gtGoal (q32 1 100) (q32 1 100) else 0#32
  let y := fMul (fMul (fMul d g) (if th then dbGain gT else one32)) x.gP
  let k := { k with gT := gT, gtGoal := if th then k.gtGoal else 0#32, limIn := (a :: k.limIn).take 161, outs := (y :: k.outs).take 161 }
  let k := if f % 8 = 7 ∧ slotB (sysSlot x.c x.im (r + 0x66)) then excursionStep x r k else k
  let k := if f % 8 = 7 ∧ th then thermalStep x r k else k
  (y, k, m)

/-- R631: the chain in the frame in which a new profile comes into force; the PWR state carries over. -/
def Chain.restart (k : Chain) : Chain := { Chain.zero with outs := k.outs, pwr := k.pwr, gtGoal := k.gtGoal, gT := k.gT }

end Sys2Proof.Machine
end

