-- ==== Sys2Proof/Machine/Losses.lean ====
section
/-! DEFINITION. The words that a cell holds for its role, numbered, and what a parity error on one of them does to a frame (R399): the word reads
+0. The spec does not number these words nor say which bus cell holds which (log 94). -/

namespace Sys2Proof.Machine

/-- A word, or +0 where it is lost. -/
def kept (lost : Nat → Bool) (i : Nat) (w : W32) : W32 := if lost i then 0#32 else w

/-- A word that holds an integer (R382). -/
def keptNat (lost : Nat → Bool) (i n : Nat) : Nat := if lost i then 0 else n

/-- Records of `m` words each, from word `b` on. -/
def keptAll {α : Type} (f : (Nat → Bool) → Nat → α → α) (lost : Nat → Bool) (b m : Nat) (l : List α) : List α :=
  l.zipIdx.map fun x => f lost (b + m * x.2) x.1

/-- Phase, fraction, index. -/
def Osc.kept (lost : Nat → Bool) (b : Nat) (o : Osc) : Osc :=
  { o with p := Machine.kept lost b o.p, q := Machine.kept lost (b + 1) o.q, idx := keptNat lost (b + 2) o.idx }

/-- The four states of a filter. -/
def Flt.kept (lost : Nat → Bool) (b : Nat) (x : Flt) : Flt :=
  ⟨Machine.kept lost b x.a1, Machine.kept lost (b + 1) x.a2, Machine.kept lost (b + 2) x.b1, Machine.kept lost (b + 3) x.b2⟩

/-- The words of an envelope. -/
def Env.kept (lost : Nat → Bool) (b : Nat) (x : Env) : Env :=
  { x with k := keptNat lost (b + 3) x.k, count := keptNat lost (b + 4) x.count,
           e0 := Machine.kept lost b x.e0, level := Machine.kept lost (b + 1) x.level, ell := Machine.kept lost (b + 2) x.ell }

/-- The words of an LFO. -/
def Lfo.kept (lost : Nat → Bool) (b : Nat) (x : Lfo) : Lfo :=
  { x with
    p := Machine.kept lost b x.p, held := Machine.kept lost (b + 1) x.held, nl := keptNat lost (b + 2) x.nl, nf := keptNat lost (b + 3) x.nf }

/-- The words of a voice: 0 to 87. -/
def Voice.kept (lost : Nat → Bool) (v : Voice) : Voice :=
  { v with
    oscs := keptAll Osc.kept lost 0 3 v.oscs, flts := keptAll Flt.kept lost 12 4 v.flts, envs := keptAll Env.kept lost 20 5 v.envs
    lfos := keptAll Lfo.kept lost 40 4 v.lfos, sums := keptAll Machine.kept lost 48 1 v.sums, xi := Machine.kept lost 80 v.xi
    gStep := Machine.kept lost 81 v.gStep, gK := keptNat lost 82 v.gK, gN := keptNat lost 83 v.gN
    gDelta := if lost 84 then 0 else v.gDelta, frame := keptNat lost 85 v.frame }

/-- R392, R399: the words of a voice that queue entries have loaded stand in the register banks, eight words for each slot of the pair; word
`i` of the bank reads +0. -/
def SlotCell.unloaded (i b : Nat) (s : SlotCell) : SlotCell :=
  let n (k x : Nat) : Nat := if i = b + k then 0 else x
  { s with voice := s.voice.map fun v =>
    { v with
      note := n 0 v.note, vel := n 1 v.vel, press := n 2 v.press, relVel := v.relVel.map (n 3), uIdx := n 4 v.uIdx, uCnt := n 5 v.uCnt } }

/-- The words of a slot: the voice, the tail, the words of the last frame, the noise generator. -/
def SlotCell.kept (lost : Nat → Bool) (s : SlotCell) : SlotCell :=
  { s with
    voice := s.voice.map (Voice.kept lost), tail := s.tail.map fun t =>
      { t with s := Machine.kept lost 90 t.s, k := keptNat lost 91 t.k, pan := Machine.kept lost 92 t.pan }
    word := Machine.kept lost 93 s.word, tailWord := Machine.kept lost 94 s.tailWord, pan := Machine.kept lost 95 s.pan
    noise := keptAll Machine.kept lost 96 1 s.noise }

/-- The states of a section. -/
def Sec.kept (lost : Nat → Bool) (b : Nat) (x : Sec) : Sec :=
  ⟨Machine.kept lost b x.x1, Machine.kept lost (b + 1) x.x2, Machine.kept lost (b + 2) x.y1, Machine.kept lost (b + 3) x.y2⟩

/-- Sections from word `b` on. -/
def keptSecs (lost : Nat → Bool) (b : Nat) (l : List Sec) : List Sec := keptAll Sec.kept lost b 4 l

/-- The words of a speaker chain, from word `b` on. -/
def Chain.kept (lost : Nat → Bool) (b : Nat) (k : Chain) : Chain :=
  { dc := k.dc.kept lost b, secs := keptSecs lost (b + 4) k.secs, lim := Machine.kept lost (b + 68) k.lim
    excZ := k.excZ.kept lost (b + 69), excX := Machine.kept lost (b + 73) k.excX, pwr := Machine.kept lost (b + 74) k.pwr
    gtGoal := Machine.kept lost (b + 75) k.gtGoal, gT := Machine.kept lost (b + 76) k.gT, fhp := k.fhp.map (Machine.kept lost (b + 77))
    gts := keptAll Machine.kept lost (b + 100) 1 k.gts, hs := keptAll Machine.kept lost (b + 300) 1 k.hs
    limIn := keptAll Machine.kept lost (b + 500) 1 k.limIn, outs := keptAll Machine.kept lost (b + 700) 1 k.outs }

/-- The words of the bus cells. -/
def Bus.kept (lost : Nat → Bool) (b : Bus) : Bus :=
  { psec := keptAll (fun l i => keptSecs l i) lost 0 16 b.psec, pass := keptAll (fun l i => keptSecs l i) lost 256 8 b.pass
    chPhase := Machine.kept lost 272 b.chPhase, dlSec := keptSecs lost 273 b.dlSec, rvSec := keptSecs lost 281 b.rvSec
    duckA := Machine.kept lost 313 b.duckA, duckB := Machine.kept lost 314 b.duckB, vup := keptAll Machine.kept lost 315 1 b.vup
    vur := keptAll Machine.kept lost 319 1 b.vur, sil := keptAll Machine.kept lost 323 1 b.sil, envP := Machine.kept lost 327 b.envP
    envV := Machine.kept lost 328 b.envV, chains := keptAll Chain.kept lost 1000 1000 b.chains }

/-- The position, the ratio and S of the resampler, which a bus cell keeps (13). -/
def Rs.kept (lost : Nat → Bool) (r : Rs) : Rs :=
  { r with
    psi := if lost 330 then 0 else r.psi, rho := if lost 331 then 0 else r.rho, acc := Machine.kept lost 332 r.acc }

/-- The words of the two slots of a pair: 256 for each. -/
def lostOfPair (lost : Nat → Bool) (k : Nat) (e : Engine) : Engine :=
  { e with voices := updAt (SlotCell.kept lost) (2 * k) (updAt (SlotCell.kept fun i => lost (256 + i)) (2 * k + 1) e.voices) }

/-- R399: the words of `bad` read +0 in the frame that is to be computed, and their cells raise CELL_PARITY. -/
def parityLosses (bad : List BadWord) (e : Engine) : Engine :=
  bad.foldl (fun e x => match x with
    | .hang _ => e
    | .bank c i =>
      match (e.cellAt c.val).role with
      | .voice p => { e with voices := updAt (SlotCell.unloaded i.val 0) (2 * p) (updAt (SlotCell.unloaded i.val 8) (2 * p + 1) e.voices) }
      | _ => e
    | .state c k =>
      match (e.cellAt c.val).role with
      | .voice p => lostOfPair (fun i => i == k) p e
      | .bus _ => { e with bus := e.bus.kept fun i => i == k, rs := e.rs.map (Rs.kept fun i => i == k) }
      | _ => e) e

end Sys2Proof.Machine
end

