-- ==== Sys2Proof/Machine/Frame.lean ====
section
/-! DEFINITION. The computation of one output frame (01 §1.4, 05 §5.3 and §5.6, 09 §9.7, 14): what is in force, the voices, the part buses, the
effects, the program path, the speaker chains, the detectors. -/

namespace Sys2Proof.Machine

/-! ## What is in force for frame `f` (R27, R281, R388) -/

/-- The changes that are due reach the part records, the mix settings and the tempo. -/
def takeChanges (f : Nat) (e : Engine) : Engine :=
  let pd := e.partChg.filter fun x => decide (x.1 ≤ f)
  let md := e.mixChg.filter fun x => decide (x.1 ≤ f)
  let td := e.tempo.tempoChg.filter fun x => decide (x.1 ≤ f)
  let ev := e.tempo.events.filter fun x => decide (f ≤ x.1)
  let tl := td.foldl (fun _ x => x.2) e.tempo.tempoLive
  { e with
    live := pd.foldl (fun l x => l.set x.2.1 x.2.2) e.live
    partChg := e.partChg.filter fun x => decide (f < x.1)
    mixLive := md.foldl (fun _ x => x.2) e.mixLive
    mixChg := e.mixChg.filter fun x => decide (f < x.1)
    tjLive := (e.tjChg.filter fun x => decide (x.1 ≤ f)).foldl (fun _ x => x.2) e.tjLive
    tjChg := e.tjChg.filter fun x => decide (f < x.1)
    tempo := { e.tempo with tempoLive := tl, tempoChg := e.tempo.tempoChg.filter fun x => decide (f < x.1), events := ev } }

/-- R847: the value that the envelope drive gives in frame `f`. -/
def drivenValue (c : Memory) (e : Engine) (f : Nat) : W32 :=
  let fl := slotF (q32 (-60)) 0#32 (sysSlot c e.image 0x5AA)
  let ce := slotF (q32 (-60)) 0#32 (sysSlot c e.image 0x5AB)
  let r := ((e.fifo.envs.find? fun x => x.1 + 5 == f).map (·.2)).getD dbFloor
  fClamp 0#32 one32 (fMul (fSub r fl) (ofRat (1 / (f32Rat ce - f32Rat fl))))

/-- The values of the macros of part `p` in frame `f` (R810, R811, R847). -/
def macroValues (c : Memory) (e : Engine) (f p : Nat) : List W32 :=
  let r := nth PartRec.zero e.live (p - 1)
  (List.range 8).map fun k => if driven c e p k then drivenValue c e f else (nth ⟨0, 0, 0, 0⟩ r.macros k).at f

/-- What the voices of part `p` read in frame `f`. -/
def voiceEnv (c : Memory) (e : Engine) (f p : Nat) : VoiceEnv :=
  { c := c, im := e.image, fam := e.kettle.fam, part := nth PartRec.zero e.live (p - 1), frame := f, tempo := e.tempo.tempoLive
    grid := (List.range 16).filter fun d => e.tempo.events.any fun x => x.1 == f && x.2 % lfoPulses d == 0
    macros := macroValues c e f p }

/-! ## The slots (11, R178, R414, R435) -/

/-- The instant at which frame `f` is released, as far as it can be foreseen. -/
def strobeAt (e : Engine) (f : Nat) : Time :=
  let d : Int := (f : Int) - (e.strobe.n : Int)
  match nextStrobe e with
  | some t => t + ((d - 1 : Int) : Rat) * frameT e.kettle.fam
  | none => e.strobe.last + (d : Rat) * frameT e.kettle.fam

/-- Slot `i` sends a chime word in frame `f`: the frame is released before the chime's end (R178). -/
def chimePlays (e : Engine) (f i : Nat) : Bool :=
  let s := nth Slot.empty e.cond.slots i
  e.steep.chime && decide (240 ≤ i) && decide (strobeAt e f < e.steep.chimeEnd) && (s.occ.isSome || decide (f < s.freeFrom + 4))

/-- A chime slot in one frame: its word is a free value (log 15), and a cut leaves a tail of the words `old` sent in the frame before (R435). -/
def chimeSlot (e : Engine) (f i free : Nat) (old s : SlotCell) : SlotCell × Nat :=
  if chimePlays e f i then ({ s with word := accStf (accLda (Config.chimeWord free)), pan := 0#32, part := 0 }, free + 1)
  else if e.steep.chime ∧ 240 ≤ i ∧ s.voice.isNone ∧ (nth Slot.empty e.cond.slots i).freeFrom + 4 = f then
    let (tl, w) := tailFrame (some ⟨fAdd old.word old.tailWord, 0, 0#32, 0⟩)
    ({ s with word := 0#32, tail := tl, tailWord := w }, free)
  else (s, free)

/-- What is known of the slots after some of them: the queues and cells so far (last first), the free values used, the voices that ended, the
number that sound. -/
structure SlotRun where
  queues : List (List Entry)
  cells : List SlotCell
  free : Nat
  ends : List (Nat × Nat × Nat)
  sounding : Nat

/-- One slot in frame `f`. -/
def slotRun (env : Nat → VoiceEnv) (e : Engine) (f : Nat) (a : SlotRun) (x : (List Entry × SlotCell) × Nat) : SlotRun :=
  let (q, s, ended) := slotFrame env f x.1.1 x.1.2
  let (s, free) := chimeSlot e f x.2 a.free x.1.2 s
  let on := s.voice.isSome || ended.isSome || chimePlays e f x.2
  { queues := q :: a.queues, cells := s :: a.cells, free := free
    ends := match ended with
      | some id => a.ends ++ [(f, x.2, id)]
      | none => a.ends
    sounding := a.sounding + on.toNat }

/-- Every slot in frame `f`; the second value counts the voices that sound. -/
def slotsFrame (c : Memory) (f : Nat) (e : Engine) : Engine × Nat :=
  let a := ((e.cond.queues.zip e.voices).zipIdx).foldl (slotRun (voiceEnv c e f) e f) ⟨[], [], e.free, [], 0⟩
  let e := e.withCond fun k => { k with queues := a.queues.reverse, ends := k.ends ++ a.ends }
  ({ e with voices := a.cells.reverse, free := a.free }, a.sounding)

/-! ## Part buses (R390, R503, R611 to R613, R640) -/

/-- gL of R503. -/
def panL (pos : W32) : W32 := look romSN (fFtp (line [.val (q32 1 8), .msu (q32 1 8) pos])) 12

/-- gR of R503. -/
def panR (pos : W32) : W32 := look romSN (fFtp (line [.val (q32 1 8), .mac (q32 1 8) pos])) 12

/-- The words that a slot sends, each with its part and pan word; a word of +0 adds an exact 0. -/
def slotWords (s : SlotCell) : List (Nat × W32 × W32) :=
  (if s.word = 0#32 then [] else [(s.part, s.pan, s.word)]) ++
    match s.tail with
    | some t => if s.tailWord = 0#32 then [] else [(t.part, t.pan, s.tailWord)]
    | none => []

/-- R611: PL and PR of a part (0: the chime). -/
def partBus (ws : List (Nat × W32 × W32)) (p : Nat) : W32 × W32 :=
  let mine := ws.filter fun x => x.1 == p
  (macSum (mine.map fun x => (panL x.2.1, x.2.2)), macSum (mine.map fun x => (panR x.2.1, x.2.2)))

/-- R612: the bus of part `p` after its sections, and their states. -/
def partSections (c : Memory) (im : Image) (fam : Fam) (p : Nat) (x : W32 × W32) (ss : List Sec) : (W32 × W32) × List Sec :=
  let b := 0x110 + 0x20 * (p - 1)
  let k0 := secCoef (fsInt fam) (sysSection c im b)
  let k1 := secCoef (fsInt fam) (sysSection c im (b + 6))
  let s (i : Nat) : Sec := nth Sec.zero ss i
  let (l, l0) := secStep k0 x.1 (s 0)
  let (r, r0) := secStep k0 x.2 (s 1)
  let (l, l1) := secStep k1 l (s 2)
  let (r, r1) := secStep k1 r (s 3)
  ((l, r), [l0, r0, l1, r1])

/-- Sums over the parts for one side: submix, reverb send, delay send, chorus send. -/
structure Submix where
  v : W32
  sr : W32
  sd : W32
  sc : W32

/-- R613, R640 for one side: `xs` are part buses after their sections with gpart and the three sends. -/
def submix (xs : List (W32 × W32 × W32 × W32 × W32)) (chime : W32) : Submix :=
  let sum (g : W32 × W32 × W32 × W32 × W32 → W32) : W32 := macSum (xs.map fun x => (g x, x.1))
  let v := xs.foldl (fun a x => accMac a x.2.1 x.1) Dy.zero
  ⟨accStf (accMac v one32 chime), sum (·.2.2.1), sum (·.2.2.2.1), sum (·.2.2.2.2)⟩

/-- R612, R613: gpart and gpart × σ of part `p`. -/
def partGains (c : Memory) (e : Engine) (p : Nat) : W32 × W32 × W32 × W32 :=
  let k := q32 (nth 100 (nth PartRec.zero e.live (p - 1)).cc 7 : Nat) 127
  let g := fMul k k
  let s (o : Nat) : W32 := slotF 0#32 one32 (sysSlot c e.image (0x100 + 0x20 * (p - 1) + o))
  (g, fMul g (s 6), fMul g (s 7), fMul g (s 8))

/-! ## Ducks (R618, R619) -/

/-- A duck in one frame: its block of slots, whether it may act, the key reading, its gain in dB. -/
def duckStep (c : Memory) (im : Image) (fam : Fam) (b : Nat) (on : Bool) (key d : W32) : W32 :=
  let depth := slotF 0#32 (q32 40) (sysSlot c im (b + 2))
  let thr := slotF (q32 (-60)) 0#32 (sysSlot c im (b + 1))
  let att := msSlot (slotF one32 (q32 500) (sysSlot c im (b + 3)))
  let rel := msSlot (slotF (q32 10) (q32 5000) (sysSlot c im (b + 4)))
  let step (t : W32) : W32 := ofRat (f32Rat depth / (countN fam (f32Rat t) : Nat))
  moveTo d (if on && fLt thr key then fNeg depth else 0#32) (step att) (step rel)

/-! ## Steep passthrough (R174 to R176, R178, R606) -/

/-- The samples of passthrough in frame `f`, and the states of the safe EQ. -/
def passFrame (e : Engine) (f p : Nat) (ins : List W32) (chime : W32 × W32) : List W32 × List (List Sec) :=
  let fam := e.kettle.fam
  let g := if e.steep.muted0 then 0#32 else dbLinear (gpDb e)
  let v := vFrames fam
  let g := if f - p < v then ofRat (f32Rat g * ((f - p : Nat) : Rat) / (v : Rat)) else g
  let one (i : Nat) (ch : W32) : W32 × List Sec :=
    cascade (safeEq (fsInt fam)) (nth [] e.bus.pass i) (fMul (line [.val (nth 0#32 ins i), .val ch]) g)
  let l := one 0 chime.1
  let r := one 1 chime.2
  ([l.1, r.1, 0#32, 0#32], [l.2, r.2])

/-! ## The full chain (14) -/

/-- The master gain of frame `f` in dB; the restore ramp stands at Gp until the frame in which it starts (R194, R205). -/
def masterDb (e : Engine) (m : MixRec) (f : Nat) : Rat := if e.steep.restore ∧ e.steep.xAt = none then gpDb e else m.vol.at f

/-- Stages 1 to 4 of Table 14-1 in frame `f`: the samples of the four channels, and the engine after them. -/
def fullFrame (c : Memory) (f : Nat) (ins : List W32) (ws : List (Nat × W32 × W32)) (envP : W32) (e : Engine) : List W32 × Engine :=
  let fam := e.kettle.fam
  let im := e.image
  let m := e.mixLive
  let old := e.dmem
  -- stage 1
  let parts := (List.range 16).map fun i => partSections c im fam (i + 1) (partBus ws (i + 1)) (nth [] e.bus.psec i)
  let chime := partBus ws 0
  let gains := (List.range 16).map fun i => partGains c e (i + 1)
  let side (g : W32 × W32 → W32) (ch : W32) : Submix := submix ((parts.map fun x => g x.1).zip gains) ch
  let L := side (·.1) chime.1
  let R := side (·.2) chime.2
  -- stage 2
  let wet (i : Nat) : W32 := nth 0#32 m.wet i
  let (cho, ph, mem) := chorusFrame c im fam f (wet 0) L.sc R.sc e.bus.chPhase old old
  let (dly, dls, mem) := delayFrame c im fam f (wet 1) L.sd R.sd e.bus.dlSec old mem
  let (rev, rvs, mem) := reverbFrame c im fam f (wet 2) L.sr R.sr e.bus.rvSec old mem
  -- stage 3
  let tl := q32 (slotU 0 1600 (sysSlot c im 0x014) : Nat) 10000
  let dp := countN0 fam (f32Rat tl)
  let pg (i : Nat) : W32 := if dp = 0 then nth 0#32 ins i else ringRead old (progBase i) 16384 f dp
  let mem := if dp = 0 then mem
    else (List.range 4).foldl (fun mem i => ringWrite (progBase i) 16384 f (stxWord (nth 0#32 ins i)) mem) mem
  let gsV := ofRat (m.gsV.at f)
  let gsP := ofRat (m.gsP.at f)
  let envV := envStep (fsInt fam) (1 / 1000) (1 / 10) (fMax (fAbs (fMul gsV L.v)) (fAbs (fMul gsV R.v))) e.bus.envV
  let dA := duckStep c im fam 0x598 (m.duckA && m.source != 1) (peakDb envV) e.bus.duckA
  let dB := duckStep c im fam 0x5A0 (m.duckB && m.source != 2) (peakDb envP) e.bus.duckB
  let cV := fMul (dbGain dB) gsV
  let cP := fMul (dbGain dA) gsP
  let master (v p a b r : W32) : W32 := line [.mac cV v, .mac cP p, .val a, .val b, .val r]
  let ml := master L.v (pg 0) cho.1 dly.1 rev.1
  let mr := master R.v (pg 1) cho.2 dly.2 rev.2
  -- stage 4
  let (prof, switch) := profileFrame f m.profile (rmFrames fam) e.prof
  let chains := if switch then e.bus.chains.map Chain.restart else e.bus.chains
  let old := if switch then clearChainLines old else old
  let mem := if switch then clearChainLines mem else mem
  let tj := match e.tjLive with
    | some t => q32 t 4
    | none => q32 85
  let x : ChainEnv :=
    { c := c, im := im, fam := fam, frame := f, prof := prof.now, ml := ml, mr := mr, d2 := fMul cP (pg 2), d3 := fMul cP (pg 3)
      vol := dbLinear (masterDb e m f), gM := ofRat (m.gM.at f), gP := ofRat (prof.gP.at f), tj := tj }
  let run := (List.range 4).foldl (fun (a : List W32 × List Chain × DelayMem × Nat) n =>
    let k := nth Chain.zero chains n
    if channelUsed e.straps.a n then
      let (y, k', mm) := chainFrame x n old k a.2.2.1
      (a.1 ++ [y], a.2.1 ++ [k'], mm, a.2.2.2 + (decide ((f32Val k.gT).m = 0) && decide ((f32Val k'.gT).m < 0)).toNat)
    else (a.1 ++ [0#32], a.2.1 ++ [k], a.2.2.1, a.2.2.2)) ([], [], mem, 0)
  let b := { e.bus with
    psec := parts.map (·.2), chains := run.2.1, chPhase := ph, dlSec := dls, rvSec := rvs, duckA := dA, duckB := dB, envV := envV }
  -- R630, R894: one raise for each channel whose gT first falls below 1.0
  (run.1, (List.range run.2.2.2).foldl (fun e _ => e.raise 0x24) { e with bus := b, prof := prof, dmemNext := run.2.2.1 })

/-- R193, R205: the samples that enter the output FIFO. -/
def blend (f : Nat) (x : Option Nat) (n : Nat) (pass full : W32) : W32 :=
  match x with
  | none => pass
  | some x =>
    if f < x then pass
    else if n ≤ f - x then full
    else line [.mac (q32 (n - (f - x) : Nat) n) pass, .mac (q32 (f - x : Nat) n) full]

/-- The detectors of Table 13-8 on the samples of one frame (R592 to R595, R610). -/
def detectFrame (e : Engine) (samples : List W32) : Bus :=
  let fs : Rat := fsInt e.kettle.fam
  let run (step : W32 → W32 → W32) (l : List W32) : List W32 :=
    (List.range 4).map fun n => if channelUsed e.straps.a n then step (nth 0#32 samples n) (nth 0#32 l n) else 0#32
  { e.bus with
    vup := run (peakStep fs (3 / 10)) e.bus.vup, vur := run (rmsStep fs (3 / 10)) e.bus.vur, sil := run (rmsStep fs (1 / 20)) e.bus.sil }

/-- Frame `f` is computed; it takes a place of the FIFO, unless it never completes (R880). `hung` are the cells whose work for it never
completes. -/
def computeFrame (c : Memory) (hung : List Nat) (f : Nat) (e : Engine) : Engine :=
  let e := lostStates f (mixReform f (takeChanges f e))
  let (e, sounding) := slotsFrame c f e
  let ws := e.voices.flatMap slotWords
  let ins := ((e.gin.words.find? fun x => x.1 == f).map (·.2)).getD (List.replicate 4 0#32)
  let e := { e with gin := { e.gin with words := e.gin.words.filter fun x => decide (f < x.1) } }
  let top := ins.foldl (fun a x => fMax a (fAbs x)) 0#32
  let envP := envStep (fsInt e.kettle.fam) (5 / 1000) (15 / 100) top e.bus.envP
  let e := { e with bus := { e.bus with envP := envP } }
  let n := framesMs e.steep.xFam 10
  let faded := match e.steep.xAt with
    | some x => decide (x + n ≤ f)
    | none => false
  let (pass, eq) := match e.steep.p with
    | some p => if faded then (List.replicate 4 0#32, e.bus.pass) else passFrame e f p ins (partBus ws 0)
    | none => (List.replicate 4 0#32, e.bus.pass)
  let e := { e with bus := { e.bus with pass := eq } }
  let isFull := match e.steep.f with
    | some g => decide (g + 5 ≤ f)
    | none => false
  let (full, e) := if isFull then fullFrame c f ins ws envP e else (List.replicate 4 0#32, e.chorusOn c)
  let samples := (List.range 4).map fun i =>
    if !channelUsed e.straps.a i then 0#32
    else if isFull then blend f e.steep.xAt n (nth 0#32 pass i) (nth 0#32 full i) else nth 0#32 pass i
  let e := { e with bus := detectFrame e samples }
  let alone := (List.range 4).map fun i => if channelUsed e.straps.a i then nth 0#32 pass i else 0#32
  let r : FrameRec :=
    { n := f, sounding := sounding, stuck := hung, samples := samples, pass := alone, vup := e.bus.vup.map peakDb, vur := e.bus.vur.map rmsDb
      quiet := e.bus.sil.map fun m => fLt (rmsDb m) (q32 (-70)), envP := peakDb envP, done := false }
  { e with fifo := { e.fifo with
    frames := if neverDone e f then e.fifo.frames else e.fifo.frames ++ [r], next := some (f + 1)
    envs := (e.fifo.envs.filter fun x => decide (f ≤ x.1 + 5)) ++ [(f, peakDb envP)]
    counts := (e.fifo.counts.filter fun x => decide (f ≤ x.1 + 5)) ++ [(f, sounding)] } }

/-! ## The cells' banks and delay memory (R385, R393) -/

/-- The delay-memory words stored in the frame before reach every cell (R385, R411). -/
def commitStores (l : List (Nat × Nat × W24)) (m : DelayMem) : DelayMem := l.foldl (fun m x => delaySet m x.2.1 x.2.2) m

/-- R393, R409: the banks swap, and the new active bank is copied into the new shadow bank, a word with a parity error as +0. -/
def Cell.swap (k : Cell) : Cell :=
  { k with
    active := k.shadow, badActive := k.badShadow, badShadow := []
    shadow := k.badShadow.foldl (fun l i => sparseSet 0#32 i 0#32 l) k.shadow }

/-! ## FRAME_COMPUTATION_START and FRAME_COMPUTATION_COMPLETE -/

/-- R22: the frame that the meadow may begin now: one of the four places is free. -/
def frameToBegin (e : Engine) : Option Nat :=
  match e.fifo.next with
  | some n => if e.strobe.started ∧ e.mode ≠ .load ∧ n ≤ e.strobe.n + 4 ∧ e.fifo.frames.length < 4 then some n else none
  | none => none

/-- R409: a parity error is found in word `i` of the shadow bank as the frame starts. -/
def Cell.copyBad (i : Nat) (k : Cell) : Cell := { k with badShadow := if k.badShadow.contains i then k.badShadow else i :: k.badShadow }

/-- The cells before the swap, with the errors that the copy of R393 finds. -/
def markBanks (bad : List BadWord) (ks : List Cell) : List Cell :=
  bad.foldl (fun ks x => match x with
    | .bank c i => updAt (Cell.copyBad i.val) c.val ks
    | _ => ks) ks

/-- The cells that meet a parity error in a frame, in ascending number, once for each word. -/
def parityCells (bad : List BadWord) (ks : List Cell) : List Nat :=
  let states (i : Nat) : Nat := (bad.filter fun x => match x with
    | .state c _ => c.val == i
    | _ => false).length
  (List.range ks.length).flatMap fun i => List.replicate ((nth Cell.zero ks i).badShadow.length + states i) i

/-- The cells that hang in the frame that begins: those found now, and those that hang already. -/
def hungCells (bad : List BadWord) (e : Engine) : List Nat :=
  (e.fifo.frames.flatMap (·.stuck) ++ bad.filterMap fun x => match x with
    | .hang c => some c.val
    | _ => none).filter (holdsRole e)

/-- The banks of the cells that hold a role swap; the others compute nothing (R878, R944). -/
def swapBanks (e : Engine) (ks : List Cell) : List Cell := ks.zipIdx.map fun x => if holdsRole e x.2 then x.1.swap else x.1

/-- FRAME_COMPUTATION_START; `bad` lists the defects that show in the frame. -/
def frameStartOp (bad : List BadWord) (s : State) : State :=
  match s.running, frameToBegin s.eng with
  | true, some n =>
    let m := commitStores s.dnew s.eng.dmemNext
    let ks := markBanks bad s.cells
    let e := Engine.settle s.caddy s.eng
    let e := { e.later with dmem := m, dmemNext := m }
    let e := computeFrame s.caddy (hungCells bad e) n (parityLosses bad e)
    let e := (parityCells bad ks).foldl (fun e i => parityRaise i e) e
    { s with cells := swapBanks s.eng ks, dnew := [], eng := Engine.settle s.caddy e }
  | _, _ => s

/-- The oldest frame under computation is complete: it waits for its strobe, or it is discarded when that has passed (R41). A frame for
which a cell hangs does not complete (R880). -/
def completeOldest (n : Nat) : List FrameRec → List FrameRec
  | [] => []
  | f :: r => if f.done ∨ f.stuck ≠ [] then f :: completeOldest n r else if f.n ≤ n then r else { f with done := true } :: r

/-- FRAME_COMPUTATION_COMPLETE. -/
def frameDoneOp (e : Engine) : Engine :=
  { e with fifo := { e.fifo with frames := completeOldest e.strobe.n e.fifo.frames } }

/-- FRAME_COMPUTATION_START. -/
def execFrameComputationStart (bad : List BadWord) (s : State) : Answer := .next (frameStartOp bad s)

/-- FRAME_COMPUTATION_COMPLETE. -/
def execFrameComputationComplete (s : State) : Answer := .next (s.play fun _ e => frameDoneOp e)

end Sys2Proof.Machine
end

