-- ==== Sys2Proof/Machine/Modulator.lean ====
section
/-! DEFINITION. The output modulator (15): switching periods, delay lines, the closed loop, trims, and the requests of 21.6. -/

namespace Sys2Proof.Machine

/-- One fine unit on the grid of R648. -/
def fu : Int := 65536

/-- The channel places its edges on the coarse grid (R650). -/
def Chan.onCoarse (c : Chan) : Bool := c.coarse || c.opened

/-- A change of a channel; e1 and e2 are +0 after a change between fine and coarse mode (R649). -/
def Chan.change (f : Chan → Chan) (c : Chan) : Chan :=
  let d := f c
  if d.onCoarse = c.onCoarse then d else { d with e1 := 0, e2 := 0 }

/-- A level moved towards 0 by at most `d`. -/
def towardZero (d v : Int) : Int := if 0 ≤ v then max 0 (v - d) else min 0 (v + d)

/-- The limits of the loop correction (R660). -/
def clampI (v : Int) : Int := max (-2048 * fu) (min (2048 * fu) v)

/-- R663: CMP_FAIL on channel `i`. -/
def cmpFail (i : Nat) (e : Engine) : Engine :=
  (e.onChan i fun x =>
    x.change fun x => { x with opened := true, closing := none, resume := false, request := true, atLimit := 0, badRun := 0 }).raise 0x20

/-! ## Switching periods (R642 to R664) -/

/-- What waits for the start of a period takes effect (R656, R657, R664, R676). -/
def Chan.atPeriod (c : Chan) : Chan :=
  let c := c.change fun c =>
    { c with
      active := if c.swap then 1 - c.active else c.active
      swap := false
      coarse := c.coarse && !c.fine
      fine := false
      opened := c.opened && !c.resume
      closing := if c.resume then some 0 else c.closing
      iA := if c.resume then 0 else c.iA
      iB := if c.resume then 0 else c.iB
      riseAt := if c.resume then none else c.riseAt
      fallAt := if c.resume then none else c.fallAt
      resume := false }
  { c with fixed := c.fixed && c.onCoarse }

/-- R647: the rising position in fine units. -/
def risePos (g : Int) (x : W32) : Int := g * (((16000 : Rat) - 14000 * f32Rat x) / (g : Rat) + 1 / 2).floor

/-- R648: the width and the shaper's error, both in units of 2^-16, for the correction `i`. -/
def periodWidth (g r i e1 e2 : Int) (x : W32) : Int × Int :=
  let ws : Int := (((32000 : Rat) + 28000 * f32Rat x) * 65536 + 1 / 2).floor
  let v := ws + i + 2 * e1 - e2
  let q := g * ((2 * v + g * fu).fdiv (2 * g * fu))
  let wq := max 3072 (min (62400 - r) q)
  (wq * fu, max (-g * fu) (min (g * fu) (v - wq * fu)))

/-- R659: cr of a period with its edges at `r` and `f`: the coarse step of the first rising transition between them. Transitions are given
in fine units from the start of the period; the engine sees their coarse steps. -/
def riseStep (r f : Int) (rises : List Nat) : Option Nat :=
  (rises.find? fun s : Nat => decide (r < (s : Int)) && decide ((s : Int) < f)).map (· / 32)

/-- R659: cf as far as it falls into the period itself: the coarse step of the first falling transition after `f`. -/
def fallStep (f : Int) (falls : List Nat) : Option Nat := (falls.find? fun s : Nat => decide (f < (s : Int))).map (· / 32)

/-- R659: cf that falls into the next period, before its rising edge `r`; counted from the start of the period that is measured. -/
def fallStepNext (r : Int) (falls : List Nat) : Option Nat := (falls.find? fun s : Nat => decide ((s : Int) < r)).map fun s => 2000 + s / 32

/-- R660: δ of the period before, once the rising edge `r` of this one is known; in units of 2^-16 fine unit. -/
def Chan.delta (r : Int) (falls : List Nat) (c : Chan) : Option Int :=
  match c.riseAt, c.fallAt.or (fallStepNext r falls) with
  | some a, some b => some (c.w - c.iA - 32 * ((b : Int) - (a : Int)) * fu)
  | _, _ => none

/-! ## Tap code registers (R651, R652, R655) -/

/-- A register with its parity bit; the spec does not say which parity it bears, the model gives it even parity (log 84). -/
def tapReg (code : BitVec 6) : BitVec 7 :=
  let p := (List.range 6).foldl (fun b i => b != code.getLsbD i) false
  (if p then 0x40#7 else 0#7) ||| code.setWidth 7

/-- The register's parity is correct. -/
def tapParity (r : BitVec 7) : Bool := !((List.range 7).foldl (fun b i => b != r.getLsbD i) false)

/-- The number of elements that a register holds. -/
def tapCode (r : BitVec 7) : Nat := (r.setWidth 6).toNat

/-- Bits of a line's registers flip. -/
def DelayLine.flip (fs : List (Fin 32 × Fin 7)) (l : DelayLine) : DelayLine :=
  { l with regs := fs.foldl (fun rs f => updAt (fun r => r ^^^ (1#7 <<< f.2.val)) f.1.val rs) l.regs }

/-- Bits of a channel's registers flip. -/
def Chan.flip (fs : TapFlips) (c : Chan) : Chan :=
  { c with lines := fs.foldl (fun ls f => updAt (DelayLine.flip [f.2]) f.1.val ls) c.lines }

/-- Every register reads with correct parity. -/
def DelayLine.parityOk (l : DelayLine) : Bool := l.regs.all tapParity

/-- The active line. -/
def Chan.line (c : Chan) : DelayLine := nth ⟨[], false⟩ c.lines c.active

/-- Codes that rise strictly. -/
def codesRise : List Nat → Bool
  | a :: b :: l => decide (a < b) && codesRise (b :: l)
  | _ => true

/-- R652: the line that a calibration leaves, and whether it passes. -/
def calLine (c : LineCal) : DelayLine :=
  let l : DelayLine := DelayLine.flip c.flips ⟨c.codes.map tapReg, false⟩
  { l with passed := l.parityOk && codesRise ((l.regs.drop 1).map tapCode) && decide (-1 ≤ c.dev) && decide (c.dev ≤ 1) }

/-- R653: the check of the active line; `dev` is the deviation of the reference delay in elements. -/
def Chan.checkOk (dev : Rat) (c : Chan) : Bool := c.line.parityOk && decide (-2 ≤ dev) && decide (dev ≤ 2)

/-- The edge at position `u` passes through a tap code register (R651). -/
def tapUsed (c : Chan) (u : Int) : Bool := !c.onCoarse && decide (u % 32 ≠ 0)

/-- The register that an edge at `u` reads. -/
def tapAt (c : Chan) (u : Int) : BitVec 7 := nth 0#7 c.line.regs (u % 32).toNat

/-- R655: the edge at `u` reads a register whose parity is wrong. -/
def tapBad (c : Chan) (u : Int) : Bool := tapUsed c u && !tapParity (tapAt c u)

/-- R651, R655: the elements that delay an edge at position `u`. -/
def tapCount (c : Chan) (u : Int) : Nat := if tapUsed c u && tapParity (tapAt c u) then tapCode (tapAt c u) else 0

/-- Updates of the loop and counting are suspended on a channel (R661, R662). -/
def suspended (e : Engine) (c : Chan) : Bool := e.out.held || c.trim.isSome

/-- What one switching period does beside its effect on the channel: an edge has read a bad register (R655), or CMP_FAIL arises (R662). -/
structure PeriodEnd where
  badTap : Bool
  stuck : Bool
deriving DecidableEq, Repr

/-- One switching period of a channel. `rises` and `falls` are the transitions within it, in fine units from its start. -/
def Chan.period (clamped susp : Bool) (rises falls : List Nat) (c : Chan) : Chan × PeriodEnd :=
  let c := c.atPeriod
  let still := clamped || c.fixed
  let g : Int := if c.onCoarse then 32 else 1
  let i := if c.opened then towardZero (32 * fu) c.iB else c.iB
  let r := if still then 16000 else risePos g c.x
  let p := if still then (32000 * fu, c.e1) else periodWidth g r i c.e1 c.e2 c.x
  let f := r + p.1 / fu
  let next :=
    if susp || c.opened then i
    else match c.delta r falls with
      | some d => clampI (i + (d + 8).fdiv 16)
      | none => i
  let lim := if susp then c.atLimit else if i = 2048 * fu ∨ i = -2048 * fu then c.atLimit + 1 else 0
  let bad := !still && (tapBad c r || tapBad c f)
  ({ c with
      periods := c.periods + 1
      trans := c.trans + (if susp then 0 else rises.length + falls.length)
      susp := c.susp || susp
      r := r, w := p.1
      e1 := p.2, e2 := if still then c.e2 else c.e1
      tapR := if still then 0 else tapCount c r
      tapF := if still then 0 else tapCount c f
      iA := i, iB := next
      riseAt := riseStep r f rises, fallAt := fallStep f falls
      atLimit := lim }, ⟨bad, decide (960 ≤ lim)⟩)

/-- R655: an edge read a tap code whose parity is wrong. The channel's edges are placed in coarse mode from the next period on; the other edge of
this period keeps its own element delay (log 85). -/
def Chan.badTap (c : Chan) : Chan :=
  if c.onCoarse then c
  else c.change fun c =>
    { c with
      coarse := true
      lines := updAt (fun l => { l with passed := false }) c.active c.lines
      both := c.both && c.cycle
      cycle := true
      activeOk := false }

/-- The line becomes active with this period: gD rises from the next strobe, in a relock not before the unmute start (R657, R679). -/
def lineServes (i : Nat) (was : Chan) (e : Engine) : Engine :=
  let quiet := match e.kettle.relock with
    | .none => true
    | .unmute _ => true
    | _ => false
  if was.fine && decide ((e.chan i).gD.v1 = 0) && quiet then
    e.onChan i fun x => { x with gD := x.gD.gain 1 (e.strobe.n + 1) (n5 e.kettle.fam) }
  else e

/-- The instant at which the next period of a channel ends. The loop's periods are eighths of a frame; on the carrier the timebase has no fixed
relation to the strobes, and a period follows the one before it (R143, R147). -/
def periodEndAt (free : Nat) (e : Engine) (x : Chan) : Time :=
  if e.kettle.carrier then x.endAt + switchTime free e.kettle else e.strobe.last + loopFrame e.kettle * ((x.periods + 1 : Nat) : Rat) / 8

/-- One more period of the channel begins before the next strobe: the loop has eight in a frame. -/
def periodDue (e : Engine) (x : Chan) : Bool :=
  if e.kettle.carrier then (match nextStrobe e with | some t => decide (x.endAt < t) | none => false) else decide (x.periods < 8)

/-- SWITCHING_PERIOD: the next period of the frame; more than a frame holds change nothing. `flips` are the register bits that have flipped
since the period before. -/
def periodOp (i : Nat) (rises falls : List Nat) (flips : TapFlips) (e : Engine) : Engine :=
  let x := (e.chan i).flip flips
  if e.strobe.started ∧ x.modulating ∧ periodDue e x then
    let (free, e) := if e.kettle.clamp then e.useFree else (0, e)
    let at' := periodEndAt free e x
    let e := { e with now := max e.now at' }
    let p := { x with endAt := at' }.period (!e.kettle.locked) (suspended e x) rises falls
    let y := if p.2.badTap then p.1.badTap else p.1
    let e := lineServes i x (e.onChan i fun _ => y)
    if p.2.stuck then cmpFail i e else e
  else e

/-! ## Gate events (Table 15-2) -/

/-- tDT of channel `i` in coarse steps (R644). -/
def deadTime (c : Memory) (im : Image) (i : Nat) : Nat := slotU 2 48 (sysSlot c im (0x008 + i))

/-- The gate events of a channel's latest period: position in fine units, the gate (true: GH), its new level. -/
def gateEvents (dt : Nat) (c : Chan) : List (Int × Bool × Bool) :=
  let f := c.r + c.w / fu
  [(c.r, false, false), (c.r + 32 * dt, true, true), (f, true, false), (f + 32 * dt, false, true)]

/-! ## Calibration at bring-up (R167, R204, Table 5-5) -/

/-- Table 22-10: the offset lies inside the trim range of ±25.0 mV; an offset at either end of it fails (R668). -/
def offsetIn (v : Int) : Bool := decide (-25000 < v) && decide (v < 25000)

/-- R885: a trim of the channel with offset `v` has succeeded at strobe `n`. -/
def trimmed (f : Fam) (n : Nat) (v : Int) (c : Chan) : Chan :=
  { c with offset := v, trimDone := some n, trimSpan := framesOf f 3600, tref := none }

/-- What B6 or B7 finds of channel `i`. The spec states no order between the two channels of one step; the model takes what a step finds as
of one instant, so that R866 orders its faults by code (log 83). -/
def calibrated (cal : ChannelCal) (i : Nat) (e : Engine) : Engine :=
  if !isModulator e.straps.a i then e
  else
    let n := e.strobe.n
    let a := calLine cal.lineA
    let b := calLine cal.lineB
    let ok := a.passed || b.passed
    let e := e.onChan i fun x =>
      { x with
        lines := [a, b], active := if a.passed || !b.passed then 0 else 1
        coarse := !ok, failEp := !ok, gD := if ok then x.gD else x.gD.gain 0 (n + 1) (n5 e.kettle.fam) }
    let e :=
      if offsetIn cal.offset then e.onChan i (trimmed e.kettle.fam n cal.offset)
      else (e.onChan i fun x => { x with opened := true, request := decide (e.mode = .play) }).raise 0x20
    e.raiseIf (!ok) 0x21

/-- DELAY_LINE_CALIBRATION: B6 ends, or after it B7. B7 ends with B6 where no channel of it is a modulator's (R167). -/
def calibrationOp (a b : ChannelCal) (e : Engine) : Engine :=
  if e.strobe.started ∧ e.steep.b3 ∧ e.kettle.locked ∧ e.mode ≠ .load then
    let e := e.later
    if !e.steep.b6 then
      let e := calibrated b 1 (calibrated a 0 e)
      let skip := !isModulator e.straps.a 2 && !isModulator e.straps.a 3
      e.onSteep fun x => { x with b6 := true, b7 := skip }
    else if !e.steep.b7 then (calibrated b 3 (calibrated a 2 e)).onSteep fun x => { x with b7 := true }
    else e
  else e

/-! ## Routine cycles (R653 to R657, Table 15-3) -/

/-- R654: the routine cycle of channel `i` starts at strobe `n`. -/
def routineDue (f : Fam) (i n : Nat) : Bool := decide (((n : Int) - (i * (fsInt f / 4) : Nat)) % (fsInt f : Int) = 0)

/-- ROUTINE_CYCLE: the check of R653 finds the reference delay `dev` elements off; `flips` as for SWITCHING_PERIOD. -/
def routineOp (i : Nat) (flips : TapFlips) (dev : Rat) (e : Engine) : Engine :=
  if e.strobe.started ∧ calibratedChan e i ∧ routineDue e.kettle.fam i e.strobe.n then
    let e := e.onChan i (Chan.flip flips)
    let x := e.chan i
    let ok := x.checkOk dev
    let fail (x : Chan) : Chan :=
      { x with activeOk := false, coarse := true, lines := updAt (fun l => { l with passed := false }) x.active x.lines }
    if x.cycle then
      if ok ∨ x.both then e else e.onChan i fun x => x.change fail
    else if !x.lines.any (·.passed) then e.onChan i (chanCalibrate false)
    else e.onChan i fun x => x.change fun x =>
      let x := { x with cycle := true, both := false, pair := false, activeOk := true }
      if ok then x else fail x
  else e

/-- Table 15-3 once the result of the shadow line is known. A line that passes while no line serves ends the DLY_FAIL episode (R657) without
DLY_SWAP, but for the pair of R669, which Table 15-3 judges. Coarse mode ends only with a line that passes while the loop is locked (R650):
between tRT or an unlock and tLOCK the routine cycles go on (R654) and leave the edges in coarse mode. -/
def cycleEnd (i : Nat) (passed : Bool) (e : Engine) : Engine :=
  let x := e.chan i
  if x.activeOk ∧ passed then e.onChan i fun x => { x with swap := true, shadowEp := false }
  else if x.activeOk then (e.onChan i fun x => { x with shadowEp := true }).raiseIf (!x.shadowEp) 0x22
  else if passed then
    (e.onChan i fun x => { x with swap := true, fine := e.kettle.locked, shadowEp := false, failEp := false }).raiseIf (!x.failEp || x.pair) 0x23
  else
    let e := e.onChan i fun x =>
      { x with failEp := true, gD := if x.gD.v1 = 0 then x.gD else x.gD.gain 0 (e.strobe.n + 1) (n5 e.kettle.fam) }
    e.raiseIf (!x.failEp) 0x21

/-- LINE_CALIBRATION_COMPLETE: where both lines are calibrated, the first to end is the active one (R657, R669). -/
def lineDoneOp (i : Nat) (cal : LineCal) (e : Engine) : Engine :=
  let x := e.chan i
  let l := calLine cal
  if ¬ x.cycle then e
  else if x.both then
    e.later.onChan i fun x =>
      { x with
        lines := x.lines.set x.active l, both := false, activeOk := l.passed, fine := x.fine || (l.passed && e.kettle.locked)
        failEp := x.failEp && !l.passed }
  else
    cycleEnd i l.passed (e.later.onChan i fun x => { x with lines := x.lines.set (1 - x.active) l, cycle := false })

/-! ## Trims (R666 to R668, R885 to R888) -/

/-- M of R596. -/
def silentFrames (f : Fam) : Nat := framesMs f 200

/-- R596: channel `i` is silent at the last strobe. R596 does not say when its count M is formed; where a run of quiet frames straddles a change
of family the model takes M of the family in force at the strobe of the test (log 82). -/
def silent (e : Engine) (c : Chan) : Bool := decide (silentFrames e.kettle.fam ≤ c.silRun)

/-- R666 at the last strobe; the 60 s are time (R15). -/
def trimDue (e : Engine) (c : Chan) : Bool :=
  let old := match c.trimFail with
    | some t => decide (t + msT 60000 ≤ e.strobe.last)
    | none => true
  e.strobe.started && e.mode == .play && c.modulating && c.request && silent e c && e.kettle.relock == .none && !c.failEp && old &&
    c.trim.isNone

/-- TRIM_START. -/
def trimStartOp (i : Nat) (e : Engine) : Engine :=
  if trimDue e (e.chan i) then
    e.onChan i fun x => { x with trim := some e.strobe.n, trimOver := false, gQ := x.gQ.gain 0 e.strobe.n (n2 e.kettle.fam) }
  else e

/-- TRIM_END (Table 15-5, R664, R668): the search ends N1 after gQ has reached 0, with the offset it found in microvolts. -/
def trimEndOp (i : Nat) (offset : Int) (e : Engine) : Engine :=
  let x := e.chan i
  let n := e.strobe.n
  let f := e.kettle.fam
  match x.trim with
  | some s =>
    if ¬ x.trimOver ∧ n = s + n2 f + framesMs f 1 then
      let e := e.onChan i fun x => { x with trimOver := true, gQ := x.gQ.gain 1 n (n2 f) }
      if offsetIn offset then
        e.onChan i fun x => { trimmed f n offset x with request := false, trimFail := none, resume := x.opened }
      else if x.opened then (e.onChan i fun x => { x with trimFail := some e.strobe.last }).raise 0x20
      else cmpFail i (e.onChan i fun x => { x with trimFail := some e.strobe.last })
    else e
  | none => e

/-- TRIM_REQUEST_TIMEOUT (R885): 3600 s, counted in frames at the trim (R16, R937), have passed since the last successful trim. -/
def trimTimeoutOp (i : Nat) (e : Engine) : Engine :=
  let x := e.chan i
  match x.trimDone with
  | some s =>
    if x.modulating ∧ e.mode = .play ∧ x.trimSpan ≤ e.strobe.n - s then e.onChan i fun x => { x with request := true } else e
  | none => e

/-- R885 once Tj is known: Tref is the first valid Tj after a trim, and a change of 15.0 °C places a request. -/
def trefStep (e : Engine) : Engine :=
  match e.dials.tj with
  | none => e
  | some t =>
    e.onChans fun x =>
      if x.trimDone.isNone then x
      else match x.tref with
        | none => { x with tref := some t }
        | some r => if x.modulating ∧ 60 ≤ (t - r).natAbs then { x with request := true } else x

/-! ## The channels at a frame strobe (R646, R662, R664, R667) -/

/-- R662, R664 for the frame that ends: none, or CMP_FAIL. A frame whose eight periods did not all arrive is not judged; after a CMP_FAIL the run
starts again (log 86). -/
def Chan.frameEnd (c : Chan) : Chan × Bool :=
  let judged := c.periods == 8 && !c.susp
  let bad := decide (c.trans < 14) || decide (18 < c.trans)
  let run := if judged then (if bad then c.badRun + 1 else 0) else c.badRun
  let cl := match c.closing with
    | some k => if !judged then some k else if bad then some 0 else if k + 1 = 96 then none else some (k + 1)
    | none => none
  ({ c with trans := 0, periods := 0, susp := false, badRun := run, closing := cl }, judged && decide (4 ≤ run))

/-- R646: the sample that modulates, from the sample released and the three gains. -/
def modSample (s gK gD gQ : W32) : W32 := fClamp (q32 (-1)) one32 (fMul (fMul (fMul s gK) gD) gQ)

/-- Channel `i` at strobe `n`, which releases the sample `s`; `quiet` says that SIL reads below -70 dBFS. -/
def chanStrobe (n : Nat) (s : W32) (quiet : Bool) (i : Nat) (e : Engine) : Engine :=
  let x := e.chan i
  let f := e.kettle.fam
  let x := { x with silRun := if quiet then x.silRun + 1 else 0 }
  let x := if x.trimOver ∧ x.gQ.at n = 1 then { x with trim := none, trimOver := false } else x
  let x := if x.trim.isSome ∧ ¬ x.trimOver ∧ ¬ silent e x then { x with trim := none, gQ := x.gQ.gain 1 n (n2 f) } else x
  let (x, fail) := if x.modulating then x.frameEnd else (x, false)
  let x := { x with x := modSample s (ofRat (e.out.gK.at n)) (ofRat (x.gD.at n)) (ofRat (x.gQ.at n)) }
  let e := e.onChan i fun _ => x
  if fail then cmpFail i e else e

/-! ## The digital output (R62, R83, R670 to R674) -/

/-- The digital output formats (Table 15-6). -/
inductive DigFmt where
  | i2s | lj | tdm4 | tdm8
deriving DecidableEq, Repr

/-- Table 6-4: the format at level `a` of STRAP_A. -/
def digFmt (a : Nat) : Option DigFmt :=
  match strapAUsed a with
  | 4 | 5 | 10 | 11 => some .i2s
  | 6 | 7 => some .lj
  | 8 => some .tdm4
  | 9 => some .tdm8
  | _ => none

/-- Table 15-6: the slot width in bits. -/
def DigFmt.slot : DigFmt → Nat
  | .tdm8 => 16
  | _ => 32

/-- Table 15-6: the bits of a sample. -/
def DigFmt.sample : DigFmt → Nat
  | .tdm8 => 16
  | _ => 24

/-- Table 15-6: the bits of a word set on one data line. -/
def DigFmt.bits : DigFmt → Nat
  | .i2s | .lj => 64
  | .tdm4 | .tdm8 => 128

/-- Table 6-4: the output channels in the slots of data line `l`; every further slot carries zero. -/
def lineSlots (a l : Nat) : List Nat :=
  match strapAUsed a with
  | 4 | 5 | 6 | 7 => if l = 0 then [0, 1] else [2, 3]
  | 8 | 9 => if l = 0 then [0, 1, 2, 3] else []
  | 10 | 11 => if l = 0 then [2, 3] else []
  | _ => []

/-- R674: the word of a sample in a format. -/
def DigFmt.word (f : DigFmt) (s gK : W32) : Int :=
  let k := f.sample - 1
  max (-(2 ^ k - 1)) (min (2 ^ k - 1) ((f32Val (fMul s gK)).roundMul2 k))

/-- The words on the data pins in the frame that strobe `n` begins. -/
def digitalWords (n : Nat) (ss : List W32) (e : Engine) : List Int :=
  (List.range 4).map fun i =>
    match digFmt e.straps.a with
    | some f => if isDigital e.straps.a i ∧ e.out.clocks ∧ e.mode = .play then f.word (nth 0#32 ss i) (ofRat (e.out.gK.at n)) else 0
    | none => 0

/-- R673, R674: the bits of one slot, MSB first: those of the sample, then zero bits. -/
def DigFmt.slotBits (f : DigFmt) (w : Int) : List Bool :=
  (List.range f.slot).map fun k => decide (k < f.sample) && (BitVec.ofInt f.sample w).getMsbD k

/-- R673: the word set of data line `l`, slots without gaps. -/
def lineSet (f : DigFmt) (a l : Nat) (ws : List Int) : List Bool :=
  (List.range (f.bits / f.slot)).flatMap fun j =>
    f.slotBits (match (lineSlots a l)[j]? with
      | some c => nth 0 ws c
      | none => 0)

/-- The digital output at strobe `n`: the words and the two word sets of the frame that begins. -/
def digitalStrobe (n : Nat) (ss : List W32) (e : Engine) : Engine :=
  let ws := digitalWords n ss e
  let sets := match digFmt e.straps.a with
    | some f => [lineSet f e.straps.a 0 ws, lineSet f e.straps.a 1 ws]
    | none => [[], []]
  { e with out := { e.out with words := ws, sets := sets, lastBits := e.out.sets.map fun l => l.getLastD false } }

/-- R672: WS_OUT in BCK_OUT period `j` of a frame. -/
def wsLevel (f : DigFmt) (j : Nat) : Bool :=
  match f with
  | .i2s => decide (32 ≤ j)
  | .lj => decide (j < 32)
  | .tdm4 | .tdm8 => j == 0

/-- R673: the level of data line `l` in BCK_OUT period `j` of a frame: the MSB stands at the frame strobe in left-justified format and one period
later in the others, whose first period carries the last bit of the set before. -/
def sdLevel (f : DigFmt) (o : Outputs) (l j : Nat) : Bool :=
  let set := nth [] o.sets l
  match f with
  | .lj => nth false set j
  | _ => if j = 0 then nth false o.lastBits l else nth false set (j - 1)

/-- R671: BCK_OUT at coarse step `c` of a frame, for its divisor. -/
def bckLevel (d c : Nat) : Bool := decide ((if d = 125 then 63 else 125) ≤ c % d)

/-- R125, R671: MCLK_OUT at coarse step `c` of a frame, for its divisor. -/
def mclkLevel (d c : Nat) : Bool := decide (c % d < (if d = 125 then 63 else 125))

/-- The level that a pin driven as `p` shows at coarse step `c` of a frame that begins at a strobe of the loop; none: the engine does not drive
it. -/
def driveLevel (e : Engine) (p : PinDrive) (c : Nat) : Option Bool :=
  let period := c / bckDivisor e.straps.a
  match p, digFmt e.straps.a with
  | .low, _ => some false
  | .high, _ => some true
  | .bck d, _ => some (bckLevel d c)
  | .mclk d, _ => some (mclkLevel d c)
  | .ws, some f => some (wsLevel f period)
  | .sd l, some f => some (sdLevel f e.out l period)
  | _, _ => none

/-! ## The rows -/

/-- CONVERSION_COMPLETE: the conversion, and what it makes of the trim requests (R885). R229 lets the scan run from strobe 0 in every mode
and R198 runs no step of steep beyond B3 in Load mode, so that the spec leaves open whether it runs there; in the model it does not (log
102). -/
def execConversionComplete (vin : Int) (vref : Nat) (s : State) : Answer :=
  .next (s.playAt fun c e => if e.mode = .load then e else trefStep (convert c vin vref e))

/-- A channel's period or calibration goes on only while the crystal serves (R683). -/
def chanPlay (f : Engine → Engine) (s : State) : Answer := .next (s.playEvents fun _ e => if e.clocked then f e else e)

/-- What a channel does at a strobe. -/
def chanPlayAt (f : Engine → Engine) (s : State) : Answer := .next (s.playAt fun _ e => if e.clocked then f e else e)

/-- DELAY_LINE_CALIBRATION. -/
def execDelayLineCalibration (first second : ChannelCal) (s : State) : Answer := chanPlay (calibrationOp first second) s

/-- SWITCHING_PERIOD. -/
def execSwitchingPeriod (ch : Fin 4) (rises falls : List Nat) (flips : TapFlips) (s : State) : Answer :=
  chanPlay (periodOp ch.val rises falls flips) s

/-- ROUTINE_CYCLE. -/
def execRoutineCycle (ch : Fin 4) (found : RoutineCheck) (s : State) : Answer := chanPlayAt (routineOp ch.val found.flips found.dev) s

/-- LINE_CALIBRATION_COMPLETE. -/
def execLineCalibrationComplete (ch : Fin 4) (codes : List (BitVec 6)) (found : LineCheck) (s : State) : Answer :=
  chanPlay (lineDoneOp ch.val ⟨codes, found.flips, found.dev⟩) s

/-- TRIM_START. -/
def execTrimStart (ch : Fin 4) (s : State) : Answer := chanPlayAt (trimStartOp ch.val) s

/-- TRIM_END. -/
def execTrimEnd (ch : Fin 4) (offset : Int) (s : State) : Answer := chanPlayAt (trimEndOp ch.val offset) s

/-- TRIM_REQUEST_TIMEOUT. -/
def execTrimRequestTimeout (ch : Fin 4) (s : State) : Answer := chanPlayAt (trimTimeoutOp ch.val) s

end Sys2Proof.Machine
end

