-- ==== Sys2Proof/Machine/Status.lean ====
section
/-! DEFINITION. Status frames (07, §7.10) and the acknowledgement of load service. -/

namespace Sys2Proof.Machine

/-- Bits as a number, the first as bit 0. -/
def bitsLe (l : List Bool) : Nat := l.foldr (fun b a => b.toNat + 2 * a) 0

/-- A record: its type and its payload (R297). -/
def statusRecord (ty : Nat) (payload : List Byte) : List Byte := BitVec.ofNat 8 ty :: payload

/-- FRAME. -/
def recFrame (e : Engine) : List Byte := statusRecord 0x01 (leBytes 6 e.strobe.n)

/-- Byte 1 of STATE. -/
def rateByte (i : Input) : Nat := if i.locked then (if i.row < 15 then i.row else 0xFE) else 0xFF

/-- STATE. -/
def recState (e : Engine) : List Byte :=
  let b0 := e.modePins + bitsLe [false, false, false, e.pins.ready, e.kettle.fam == .f44, e.kettle.relock != .none && !e.kettle.recovery,
    e.input.locked, autobaud e.straps]
  statusRecord 0x02 (leBytes 1 b0 ++ leBytes 1 (rateByte e.input) ++ leBytes 1 (e.straps.a + 16 * e.straps.b) ++
    leBytes 1 (e.straps.c + 16 * e.straps.d))

/-- One FAULT record. -/
def recFault (p : FaultRec) : List Byte := statusRecord 0x03 (leBytes 1 p.code ++ leBytes 1 p.count)

/-- The spare cells (R884). -/
def spareCount (e : Engine) : Nat := (e.health.cells.filter fun x => x.role == .spare).length

/-- R412, R942: the voice that a slot holds in frame `n`, from the one it holds after the frames computed so far and its pending entries. -/
def occAfter (n : Nat) (q : List Entry) (v : Option Nat) : Option Nat :=
  (q.filter fun en => decide (en.frame ≤ n)).foldl (fun v en => match en.act with
    | .noteOn .. => some en.id
    | .cut | .steal => if v = some en.id then none else v
    | _ => v) v

/-- The voices sounding in frame `n` (R297, R412). Of a frame that the meadow has not begun by its strobe the pending entries decide; a
voice whose release would end in such a frame counts until the meadow has computed that end (log 89). -/
def voicesIn (n : Nat) (e : Engine) : Nat :=
  if beforeP e n then 0
  else match e.fifo.counts.find? fun x => x.1 == n with
    | some x => x.2
    | none => (((e.cond.queues.zip e.voices).zipIdx).filter fun x =>
        (occAfter n x.1.1 (x.1.2.voice.map (·.id))).isSome || chimePlays e n x.2).length

/-- VOICES. -/
def recVoices (e : Engine) : List Byte :=
  let n := voicesIn e.strobe.n e
  statusRecord 0x04 (leBytes 2 n ++ leBytes 2 e.limitNow ++ leBytes 1 (spareCount e) ++ leBytes 1 0)

/-- LINK. -/
def recLink (e : Engine) : List Byte :=
  statusRecord 0x05 (leBytes 2 e.link.framing ++ leBytes 2 e.link.syncFail ++ leBytes 2 e.link.partialCount ++ leBytes 2 e.link.overrun)

/-- DIALS. -/
def recDials (e : Engine) : List Byte :=
  let d := e.dials.chans.take 13
  statusRecord 0x06 (leBytes 4 (bitsLe (d.map (·.ovr)) + 65536 * bitsLe (d.map (·.unr))))

/-- SENSE. -/
def recSense (e : Engine) : List Byte :=
  let t : Nat := match e.dials.tj with
    | some t => (BitVec.ofInt 16 t).toNat
    | none => 0x8000
  statusRecord 0x07 (leBytes 2 t ++ leBytes 2 ((e.dials.vbat).getD 0xFFFF))

/-- A byte of LEVELS: floor(-40 log10 p), limited to 0 to 255. -/
def levelByte (w : W32) : Nat :=
  let p := f32Rat (fAbs w)
  if p ≤ 0 then 255
  else if 1 ≤ p then 0
  else min 255 ((fxDiv (-40 * fxLn p) fxLn10) / 2 ^ 192).toNat

/-- LEVELS. -/
def recLevels (e : Engine) : List Byte := statusRecord 0x08 ((e.link.peak.take 4).flatMap fun w => leBytes 1 (levelByte w))

/-- CAL (R887). -/
def recCal (e : Engine) : List Byte := statusRecord 0x09 (leBytes 1 (bitsLe (e.out.chans.map (·.request))))

/-- R294, R295: a frame around its records. -/
def statusFrame (seq : Byte) (records : List Byte) : List Byte :=
  let body := leBytes 1 records.length ++ [seq] ++ records
  0xA5#8 :: body ++ [crc8 body]

/-- A frame starts at the last strobe (R296, R299 to R301). -/
def sendStatus (records : List Byte) (e : Engine) : Engine :=
  let fr := (e.faults.pend.take 16).flatMap recFault
  let e' := e.startTx (statusFrame e.link.seq (records ++ fr))
  { e' with
    faults := { e.faults with pend := e.faults.pend.drop 16 }
    link := { e'.link with seq := e.link.seq + 1#8 } }

/-- A frame may start at the last strobe (R300). -/
def mayStart (e : Engine) : Bool := e.txIdle

/-- A regular frame is due (Table 7-12). -/
def regularIsDue (e : Engine) : Bool :=
  mayStart e && (match e.mode with | .play => e.link.regularDue | .bench => true | .load => false)

/-- REGULAR_FRAME. -/
def regularFrameOp (e : Engine) : Engine :=
  if regularIsDue e then
    let e := sendStatus (recFrame e ++ recState e ++ recVoices e ++ recLink e ++ recDials e ++ recSense e ++ recLevels e ++ recCal e) e
    { e with link := { e.link with regularDue := false, peak := List.replicate 4 0#32 } }
  else e

/-- FAULT_FRAME. -/
def faultFrameOp (e : Engine) : Engine :=
  if mayStart e ∧ e.mode = .play ∧ ¬ e.link.regularDue ∧ e.faults.pend ≠ [] then sendStatus (recFrame e ++ recState e) e else e

/-- STATUS_LOAD_FRAME. -/
def loadStatusOp (e : Engine) : Engine :=
  if mayStart e ∧ e.mode = .load ∧ ¬ e.ackReady ∧ (e.link.loadDue ∨ (e.pins.ready ∧ e.faults.pend ≠ [])) then
    let e := sendStatus (recFrame e ++ recState e) e
    { e with link := { e.link with loadDue := false } }
  else e

/-- R300 at a strobe: a regular frame falls due at every 9600th strobe while the engine has a Tr. -/
def cadence (e : Engine) : Engine :=
  if e.mode = .play ∧ e.strobe.n % 9600 = 0 ∧ e.link.tr.isSome then { e with link := { e.link with regularDue := true } } else e

/-- REGULAR_FRAME. -/
def execRegularFrame (s : State) : Answer := .next (s.play fun _ e => regularFrameOp e)

/-- FAULT_FRAME. -/
def execFaultFrame (s : State) : Answer := .next (s.play fun _ e => faultFrameOp e)

/-- STATUS_LOAD_FRAME. -/
def execStatusLoadFrame (s : State) : Answer := .next (s.play fun _ e => loadStatusOp e)

/-- ACKNOWLEDGEMENT. -/
def execAcknowledgement (s : State) : Answer := .next (s.play fun _ e => sendAck e)

end Sys2Proof.Machine
end

