-- ==== Sys2Proof/Machine/Strobe.lean ====
section
/-! DEFINITION. The frame strobe (01 §1.4, 05): release, misses, slack, fence, thermos units, pins, P, F and the release of held events,
the resampler's interval, the output channels, FAULT_N. -/

namespace Sys2Proof.Machine

/-! ## Release (R21, R41, R42, R939) -/

/-- The frame that strobe `n` releases, when it is complete. -/
def readyFrame (e : Engine) (n : Nat) : Option FrameRec := e.fifo.frames.find? fun f => f.n == n && f.done

/-- Strobe `n` releases frame `n`, or the samples released last (R41). R939 leaves open whether a miss at the very strobe at which the fence
becomes active is raised; the model takes the fence as the strobe before left it (log 75). -/
def releaseFrame (n : Nat) (e : Engine) : Engine :=
  let ended := e.fifo.muted && decide (96 ≤ e.fifo.fullRun)
  let e := if ended then { e with fifo := { e.fifo with muted := false, fullRun := 0 } } else e
  if beforeP e n then { e with fifo := { e.fifo with out := List.replicate 4 0#32, missRun := 0 } }
  else
    match readyFrame e n with
    | some r =>
      { e with fifo := { e.fifo with
        out := r.samples, rel := some r, missRun := 0, frames := e.fifo.frames.filter fun f => !(f.n == n && f.done) } }
    | none =>
      if e.cond.fenceOn then
        let run := e.fifo.missRun + 1
        let start := decide (3 ≤ run)
        let e := { e with fifo := { e.fifo with
          missRun := run, muted := e.fifo.muted || start, fullRun := if start then 0 else e.fifo.fullRun } }
        e.raise 0x1F
      else { e with fifo := { e.fifo with missRun := 0 } }

/-- R24: the slack at strobe `n`. -/
def slackAt (n : Nat) (e : Engine) : Nat :=
  ((List.range 3).filter fun k => beforeP e (n + 1 + k) || (readyFrame e (n + 1 + k)).isSome).length

/-- R42: the run of strobes with full slack that ends a mute. The spec does not say whether a strobe at which the fence is inactive counts
towards this run; the model counts every strobe (log 54). -/
def muteRun (slack : Nat) (e : Engine) : Engine :=
  if e.fifo.muted then { e with fifo := { e.fifo with fullRun := if slack = 3 then e.fifo.fullRun + 1 else 0 } } else e

/-- The samples that reach the modulator and the digital output (R42, R423). -/
def pinSamples (e : Engine) : List W32 := if e.fifo.muted || e.health.lost then List.replicate 4 0#32 else e.fifo.out

/-- The largest magnitudes of LEVELS (Table 7-10). -/
def levelsStep (e : Engine) : Engine :=
  { e with link := { e.link with
    peak := (List.range 4).map fun i => fMax (nth 0#32 e.link.peak i) (fAbs (nth 0#32 e.fifo.out i)) } }

/-! ## Program words (R33, R574 to R578, R599) -/

/-- The word of interval `m` is formed: it belongs to frame `m + 5`. A lock forms the words from the interval of its own stamp on (R577),
and those of the frames up to Z come from what was fed before it (R344, R345). -/
def formWord (m : Nat) (e : Engine) : Engine :=
  let f := m + 5
  let before := match e.gin.z with
    | some z => decide (f ≤ z)
    | none => false
  let later := match e.rs with
    | some r => decide (m < r.since)
    | none => false
  let r := if later || (before && e.rsOld.isSome) then e.rsOld else e.rs
  let g := ofRat (ginAt e f)
  let w := match r with
    | some r => (List.range 4).map fun i => r.word g i
    | none => List.replicate 4 0#32
  { e with rsOld := if before then e.rsOld else none, gin := { e.gin with pending := none, words := e.gin.words ++ [(f, w)] } }

/-- The resampler at strobe `n`, at instant `t`. -/
def rsStrobe (n : Nat) (t : Time) (e : Engine) : Engine :=
  let f := e.kettle.fam
  let e := match e.gin.pending with
    | some m => formWord m e
    | none => e
  let next (r : Rs) : Rs × Bool :=
    let p := if e.kettle.place then (r.retune f t, false) else r.strobe f n t
    (p.1.takeTurns f n t, p.2)
  let a : Option (Rs × Bool) := e.rs.map next
  let b : Option (Rs × Bool) := e.rsOld.map next
  let slip := ((a.map fun p : Rs × Bool => p.2).getD false) || ((b.map fun p : Rs × Bool => p.2).getD false)
  let e := (e.onKettle fun k => { k with place := false })
  ({ e with rs := a.map (fun p : Rs × Bool => p.1), rsOld := b.map (fun p : Rs × Bool => p.1), gin := { e.gin with pending := some n } }).raiseIf slip 0x2C

/-! ## Thermos (R106 to R108, R864) -/

/-- The unit that strobe `n` writes: the words due, and T05 after a retained fault. -/
def thermosUnit (n : Nat) (e : Engine) : List (Nat × W16) :=
  let due : List (Nat × W16) := (e.due.filter fun x : Nat × Nat × W16 => decide (x.1 ≤ n)).map fun x : Nat × Nat × W16 => x.2
  match e.faults.last with
  | some k => if e.faults.dirty ∧ e.steep.b4 then due ++ [(5, BitVec.ofNat 16 k.1)] else due
  | none => due

/-- The words that were written are no longer due. -/
def thermosWritten (n : Nat) (e : Engine) : Engine :=
  { e with
    due := e.due.filter fun x => decide (n < x.1)
    faults := { e.faults with dirty := e.faults.dirty && !e.steep.b4 } }

/-! ## P (R174, R61, R178) -/

/-- Channel `i` starts modulating (R649, R661). -/
def startChannel (i : Nat) (e : Engine) : Engine :=
  if e.mode = .play ∧ isModulator e.straps.a i ∧ e.kettle.down.isNone then
    e.onChan i fun x =>
      { x with modulating := true, e1 := 0, e2 := 0, iA := 0, iB := 0, riseAt := none, fallAt := none, trans := 0, periods := 0,
                 endAt := e.strobe.last, susp := false, badRun := 0 }
  else e

/-- Strobe P. R22 bounds only from below when the meadow may begin frame P, and P is known at strobe P alone; the model lets it begin frame P
from strobe P on (log 76). -/
def startP (c : Memory) (e : Engine) : Engine :=
  let s := e.steep
  if e.mode ≠ .load ∧ s.p.isNone ∧ s.b4 ∧ s.b5 ∧ s.b6 then
    let n := e.strobe.n
    let e := e.onSteep fun x => { x with p := some n }
    let e := { e with fifo := { e.fifo with next := some n } }
    chimeStart c (startChannel 1 (startChannel 0 e))
  else e

/-! ## F (R171, R188 to R192, R205, R702, R810, R865) -/

/-- A held note-off (Table 7-4). -/
def Held.isNoteOff (h : Held) : Bool :=
  match h.bytes with
  | [s, _, v] => decide (s.toNat / 16 = 8) || (decide (s.toNat / 16 = 9) && v == 0#8)
  | _ => false

/-- The same part and note. -/
def Held.sameNote (a b : Held) : Bool :=
  decide ((nth 0#8 a.bytes 0).toNat % 16 = (nth 0#8 b.bytes 0).toNat % 16) && nth 0#8 a.bytes 1 == nth 0#8 b.bytes 1

/-- R190: pairs leave the queue; `acc` holds what is kept so far, latest first. -/
def pairHeld : List Held → List Held → List Held
  | acc, [] => acc.reverse
  | acc, h :: r =>
    let mate (x : Held) : Bool := x.isNoteOn && x.sameNote h
    if h.isNoteOff && acc.any mate then pairHeld (dropFirst mate acc) r else pairHeld (h :: acc) r

/-- What a held event does when it is released. -/
inductive Late where
  | message (bytes : List Byte)
  | code (k : IrCode)
deriving DecidableEq, Repr

/-- Insertion by completion time, after what completes at the same time. -/
def insertLate (x : Nat × Late) : List (Nat × Late) → List (Nat × Late)
  | [] => [x]
  | y :: r => if x.1 < y.1 then x :: y :: r else y :: insertLate x r

/-- R188 to R191: the held events in the order of their release; completion times are counted in crystal periods (R181). -/
def heldEvents (t : Time) (s : Steep) : List (Nat × Late) :=
  let ms := (pairHeld [] s.held).filter fun h => !(h.isNoteOn && decide (((16 * h.time : Nat) : Rat) + msT 250 < t))
  let ms := (ms ++ s.heldRt.toList).map fun h => (h.time, Late.message h.bytes)
  let ks := s.irHold.map fun x => (x.2, Late.code x.1)
  (ms ++ ks).foldl (fun l x => insertLate x l) []

/-- A held event is released. Fault events wait for those of the strobe (R866). -/
def releaseLate (c : Memory) (e : Engine) (x : Late) : Engine :=
  Engine.settleAt c
    (match x with
      | .message bs => applyAny c bs e
      | .code k =>
        match irKey c e.image k with
        | some i => if irClass c e.image i = 2 then e else irEmit i 0 e
        | none => e)

/-- R810: every macro takes INITIAL of the patch in force. -/
def macrosAtF (c : Memory) (e : Engine) : Engine :=
  let set (r : PartRec) : PartRec := { r with macros := macrosInit c r.patch (e.strobe.n + 5) }
  { e with parts := e.parts.map set, live := e.live.map set, partChg := e.partChg.map fun x => (x.1, x.2.1, set x.2.2) }

/-- R194, R205: where the crossfade and the restore ramp start. -/
def handOver (e : Engine) : Engine :=
  let x := e.strobe.n + 5
  let e := restoreFrom (match e.kettle.relock with
    | .settle => max x (unmuteStrobe e)
    | _ => x) e
  match e.kettle.relock with
  | .mute _ => { e with steep := { e.steep with xAt := none } }
  | .retune => { e with steep := { e.steep with xAt := none } }
  | _ => e

/-- The conditions of F (R170). -/
def readyForF (e : Engine) : Bool :=
  let s := e.steep
  decide (e.mode ≠ .load) && s.f.isNone && e.kettle.firstLock && s.b4 && s.b5 && s.b7 && s.b9 && s.b10

/-- Strobe F; `t04` is the tempo of the record in force. -/
def startF (c : Memory) (t04 : Nat) (e : Engine) : Engine :=
  if !readyForF e then e
  else
    let e := e.onSteep fun x => { x with f := some e.strobe.n, restore := !x.muted0 }
    let e := { e with pins := { e.pins with ready := true } }
    let e := startChannel 3 (startChannel 2 (gpTakeover c e))
    let e := tempoAtF c t04 (macrosAtF c (handOver e))
    -- R721: while a flood is in progress nothing is held (log 87)
    let held := heldEvents e.strobe.last (if e.ir.flood then { e.steep with irHold := [] } else e.steep)
    let e := e.onSteep fun x => { x with held := [], heldRt := none, irHold := [] }
    let e := held.foldl (fun e x => releaseLate c e x.2) e
    let e := Engine.settleAt c (batteryAtF c (Engine.settleAt c (dialsAtF c e)))
    let early := e.faults.early
    let e := { e with faults := { e.faults with early := [] } }
    e.apart fun e => early.foldl (fun e k => Engine.settle c (e.emit (.fault k.1))) e

/-! ## Load mode (R198, R739) -/

/-- READY and load service at the first strobe after B3. -/
def startLoad (e : Engine) : Engine :=
  if e.mode = .load ∧ e.steep.b3 ∧ ¬ e.pins.ready then
    { e with pins := { e.pins with ready := true }, load := { e.load with begun := true }, link := { e.link with loadDue := true } }
  else e

/-! ## The strobe -/

/-- The strobe apart from the thermos: `t` is its instant, `t04` the tempo of the record in force. -/
def strobeBody (c : Memory) (t04 : Nat) (t : Time) (e : Engine) : Engine :=
  let e := advanceStrobe t e
  let n := e.strobe.n
  let e := relockStep { e with out := { e.out with held := e.out.held && !e.kettle.locked } }
  if e.mode = .load then faultPin (startLoad e)
  else
    let e := if n = 0 then otherUpdate (trackUpdate e) else e
    let e := releaseFrame n e
    -- R237: the fifth conversion of DIAL11 completes at strobe 432
    let e := if 432 ≤ n then e.onSteep fun x => { x with b10 := true } else e
    let e := rsStrobe n t e
    let e := freeEnded n (startP c e)
    -- R614: the frames before P pass without the meadow
    let e := if e.steep.p.isNone then e.chorusOn c else e
    let slack := slackAt n e
    let e := muteRun slack e
    let e := fenceStep (e.steep.p.isSome && e.kettle.locked && !e.out.held) slack e
    let e := decideFences (failStep e)
    let e := e.apart (startF c t04)
    let atF := decide (e.steep.f = some n)
    -- the faults of this strobe are offered to the bindings together, in ascending code, after what F releases (R865, R866)
    let e := { e with evq := sortFaults e.evq }.raiseIf (atF && gpConflict c e) 0x08
    let ss := pinSamples e
    let quiet (i : Nat) : Bool := match e.fifo.rel with
      | some r => nth true r.quiet i
      | none => true
    let e := (List.range 4).foldl (fun e i => chanStrobe n (nth 0#32 ss i) (quiet i) i e) e
    let e := digitalStrobe n ss e
    let e := cadence (levelsStep e)
    let rd (g : FrameRec → List W32) : List W32 := match e.fifo.rel with
      | some r => g r
      | none => List.replicate 4 dbFloor
    -- an output entry stands at its initial level at the takeover strobe (R65, R714)
    let e := if atF then e else vuStep c (rd (·.vup)) (rd (·.vur)) (pinStep c n e)
    gpPinsStep c n (faultPin (Engine.settleAt c e))

/-- FRAME_STROBE. -/
def frameStrobeOp (s : State) : State :=
  match s.running, nextStrobe s.eng with
  | true, some t =>
    let e := strobeBody s.caddy (s.thermos.word 4) t (Engine.settle s.caddy s.eng)
    if e.mode = .load then { s with eng := e }
    else { s with thermos := s.thermos.commit (thermosUnit e.strobe.n e), eng := thermosWritten e.strobe.n e }
  | _, _ => s

/-- FRAME_STROBE. -/
def execFrameStrobe (s : State) : Answer := .next (frameStrobeOp s)

end Sys2Proof.Machine
end

