-- ==== Sys2Proof/Machine/Dispatch.lean ====
section
/-! DEFINITION. The dispatch: one arm for each command, each a direct call of its meaning. -/

namespace Sys2Proof.Machine

open Sys2Proof

def exec (i : Instr) (s : State) : Host.Outcome State Fault Refusal :=
  match i with
  | .resetNFall => Sys2Proof.Machine.execResetNFall s
  | .resetNRise mode => Sys2Proof.Machine.execResetNRise mode s
  | .powerOnResetRelease mode => Sys2Proof.Machine.execPowerOnResetRelease mode s
  | .detectorTrip rail => Sys2Proof.Machine.execDetectorTrip rail s
  | .vbakSwitchover => Sys2Proof.Machine.execVbakSwitchover s
  | .vioSwitchover => Sys2Proof.Machine.execVioSwitchover s
  | .holdLatchSet => Sys2Proof.Machine.execHoldLatchSet s
  | .crystalValid t => Sys2Proof.Machine.execCrystalValid t s
  | .crystalLoss t => Sys2Proof.Machine.execCrystalLoss t s
  | .internalReset t => Sys2Proof.Machine.execInternalReset t s
  | .internalResetRelease mode => Sys2Proof.Machine.execInternalResetRelease mode s
  | .crystalStartTimeout t => Sys2Proof.Machine.execCrystalStartTimeout t s
  | .loopStart t => Sys2Proof.Machine.execLoopStart t s
  | .lockDeclared t => Sys2Proof.Machine.execLockDeclared t s
  | .unlockDeclared t => Sys2Proof.Machine.execUnlockDeclared t s
  | .loopLockTimeout t => Sys2Proof.Machine.execLoopLockTimeout t s
  | .relockAccepted t => Sys2Proof.Machine.execRelockAccepted t s
  | .retuneStart => Sys2Proof.Machine.execRetuneStart s
  | .unmuteStart => Sys2Proof.Machine.execUnmuteStart s
  | .trackingSettled => Sys2Proof.Machine.execTrackingSettled s
  | .frameStrobe => Sys2Proof.Machine.execFrameStrobe s
  | .counterTick pins => Sys2Proof.Machine.execCounterTick pins s
  | .frameComputationStart bad => Sys2Proof.Machine.execFrameComputationStart bad s
  | .frameComputationComplete => Sys2Proof.Machine.execFrameComputationComplete s
  | .strapBurst a b c d vref => Sys2Proof.Machine.execStrapBurst a b c d vref s
  | .directoryCheck => Sys2Proof.Machine.execDirectoryCheck s
  | .thermosStep => Sys2Proof.Machine.execThermosStep s
  | .meadowSelfTest romOk dmemOk failed => Sys2Proof.Machine.execMeadowSelfTest romOk dmemOk failed s
  | .delayLineCalibration first second => Sys2Proof.Machine.execDelayLineCalibration first second s
  | .contentScan => Sys2Proof.Machine.execContentScan s
  | .partPreparation => Sys2Proof.Machine.execPartPreparation s
  | .steepLate t => Sys2Proof.Machine.execSteepLate t s
  | .chimeEnd => Sys2Proof.Machine.execChimeEnd s
  | .conversionComplete vin vref => Sys2Proof.Machine.execConversionComplete vin vref s
  | .receiverArmed t => Sys2Proof.Machine.execReceiverArmed t s
  | .syncCharacter edges stopHigh => Sys2Proof.Machine.execSyncCharacter edges stopHigh s
  | .syncCandidateRejected c => Sys2Proof.Machine.execSyncCandidateRejected c s
  | .framingError t rise => Sys2Proof.Machine.execFramingError t rise s
  | .idleLine t => Sys2Proof.Machine.execIdleLine t s
  | .noteOff ch note vel t => Sys2Proof.Machine.execNoteOff ch note vel t s
  | .noteOn ch note vel t => Sys2Proof.Machine.execNoteOn ch note vel t s
  | .polyKeyPressure ch note p t => Sys2Proof.Machine.execPolyKeyPressure ch note p t s
  | .controlChange ch cc v t => Sys2Proof.Machine.execControlChange ch cc v t s
  | .bankSelectMsb ch v t => Sys2Proof.Machine.execBankSelectMsb ch v t s
  | .dataEntryMsb ch v t => Sys2Proof.Machine.execDataEntryMsb ch v t s
  | .dataEntryLsb ch v t => Sys2Proof.Machine.execDataEntryLsb ch v t s
  | .partVolume ch v t => Sys2Proof.Machine.execPartVolume ch v t s
  | .pan ch v t => Sys2Proof.Machine.execPan ch v t s
  | .macros ch m v t => Sys2Proof.Machine.execMacros ch m v t s
  | .sustain ch v t => Sys2Proof.Machine.execSustain ch v t s
  | .portamento ch v t => Sys2Proof.Machine.execPortamento ch v t s
  | .sostenuto ch v t => Sys2Proof.Machine.execSostenuto ch v t s
  | .rpnSelect ch msb v t => Sys2Proof.Machine.execRpnSelect ch msb v t s
  | .nrpnSelect ch msb v t => Sys2Proof.Machine.execNrpnSelect ch msb v t s
  | .allSoundOff ch v t => Sys2Proof.Machine.execAllSoundOff ch v t s
  | .resetAllControllers ch v t => Sys2Proof.Machine.execResetAllControllers ch v t s
  | .allNotesOff ch k v t => Sys2Proof.Machine.execAllNotesOff ch k v t s
  | .programChange ch p t => Sys2Proof.Machine.execProgramChange ch p t s
  | .channelPressure ch p t => Sys2Proof.Machine.execChannelPressure ch p t s
  | .pitchBend ch lsb msb t => Sys2Proof.Machine.execPitchBend ch lsb msb t s
  | .systemExclusive data t => Sys2Proof.Machine.execSystemExclusive data t s
  | .systemCommon k data t => Sys2Proof.Machine.execSystemCommon k data t s
  | .timingClock t => Sys2Proof.Machine.execTimingClock t s
  | .startPlay t => Sys2Proof.Machine.execStartPlay t s
  | .continuePlay t => Sys2Proof.Machine.execContinuePlay t s
  | .stopPlay t => Sys2Proof.Machine.execStopPlay t s
  | .ignoredRealTime k t => Sys2Proof.Machine.execIgnoredRealTime k t s
  | .externalModeExit t => Sys2Proof.Machine.execExternalModeExit t s
  | .regularFrame => Sys2Proof.Machine.execRegularFrame s
  | .faultFrame => Sys2Proof.Machine.execFaultFrame s
  | .statusLoadFrame => Sys2Proof.Machine.execStatusLoadFrame s
  | .inputLock edges => Sys2Proof.Machine.execInputLock edges s
  | .decisionInstant edges t => Sys2Proof.Machine.execDecisionInstant edges t s
  | .switchingPeriod ch rises falls flips => Sys2Proof.Machine.execSwitchingPeriod ch rises falls flips s
  | .routineCycle ch found => Sys2Proof.Machine.execRoutineCycle ch found s
  | .lineCalibrationComplete ch codes found => Sys2Proof.Machine.execLineCalibrationComplete ch codes found s
  | .trimStart ch => Sys2Proof.Machine.execTrimStart ch s
  | .trimEnd ch offset => Sys2Proof.Machine.execTrimEnd ch offset s
  | .trimRequestTimeout ch => Sys2Proof.Machine.execTrimRequestTimeout ch s
  | .pulseDistanceCodeFrame runs t => Sys2Proof.Machine.execPulseDistanceCodeFrame runs t s
  | .pulseDistanceRepeatFrame runs t => Sys2Proof.Machine.execPulseDistanceRepeatFrame runs t s
  | .biPhaseFrame runs t => Sys2Proof.Machine.execBiPhaseFrame runs t s
  | .chainTimeout t => Sys2Proof.Machine.execChainTimeout t s
  | .flood a => Sys2Proof.Machine.execFlood a s
  | .floodEnd a => Sys2Proof.Machine.execFloodEnd a s
  | .debounceChange entry => Sys2Proof.Machine.execDebounceChange entry s
  | .switchRepeat entry => Sys2Proof.Machine.execSwitchRepeat entry s
  | .switchLong entry => Sys2Proof.Machine.execSwitchLong entry s
  | .rotation => Sys2Proof.Machine.execRotation s
  | .roleMove cell => Sys2Proof.Machine.execRoleMove cell s
  | .cellTestComplete cell passed => Sys2Proof.Machine.execCellTestComplete cell passed s
  | .loadInfo h => Sys2Proof.Machine.execLoadInfo h s
  | .loadOpen h mode tag failRow => Sys2Proof.Machine.execLoadOpen h mode tag failRow s
  | .loadSection h id length scrc => Sys2Proof.Machine.execLoadSection h id length scrc s
  | .loadData h offset bytes failRow => Sys2Proof.Machine.execLoadData h offset bytes failRow s
  | .loadSeal h failRow => Sys2Proof.Machine.execLoadSeal h failRow s
  | .loadClose h failRow => Sys2Proof.Machine.execLoadClose h failRow s
  | .loadAbort h => Sys2Proof.Machine.execLoadAbort h s
  | .acknowledgement => Sys2Proof.Machine.execAcknowledgement s
  | .volumeStep value => Sys2Proof.Machine.execVolumeStep value s
  | .volumeSet value => Sys2Proof.Machine.execVolumeSet value s
  | .muteToggle => Sys2Proof.Machine.execMuteToggle s
  | .mute => Sys2Proof.Machine.execMute s
  | .unmute => Sys2Proof.Machine.execUnmute s
  | .sourceSet value => Sys2Proof.Machine.execSourceSet value s
  | .sourceCycle => Sys2Proof.Machine.execSourceCycle s
  | .profileSet value => Sys2Proof.Machine.execProfileSet value s
  | .profileStep value => Sys2Proof.Machine.execProfileStep value s
  | .patchSet part bank value => Sys2Proof.Machine.execPatchSet part bank value s
  | .patchStep part value => Sys2Proof.Machine.execPatchStep part value s
  | .macroSet part m value => Sys2Proof.Machine.execMacroSet part m value s
  | .macroStep part m value => Sys2Proof.Machine.execMacroStep part m value s
  | .tap => Sys2Proof.Machine.execTap s
  | .tempoStep value => Sys2Proof.Machine.execTempoStep value s
  | .transport arg => Sys2Proof.Machine.execTransport arg s
  | .ccSend part cc v => Sys2Proof.Machine.execCcSend part cc v s
  | .note part note vel => Sys2Proof.Machine.execNote part note vel s
  | .counter n action => Sys2Proof.Machine.execCounter n action s
  | .pinSet entry => Sys2Proof.Machine.execPinSet entry s
  | .pinClear entry => Sys2Proof.Machine.execPinClear entry s
  | .pinToggle entry => Sys2Proof.Machine.execPinToggle entry s
  | .pinLevel entry level => Sys2Proof.Machine.execPinLevel entry level s
  | .duck which arg => Sys2Proof.Machine.execDuck which arg s
  | .wetSet effect value => Sys2Proof.Machine.execWetSet effect value s
  | .clr cell => Sys2Proof.Machine.execClr cell s
  | .lda cell x => Sys2Proof.Machine.execLda cell x s
  | .mul cell x y => Sys2Proof.Machine.execMul cell x y s
  | .mac cell x y => Sys2Proof.Machine.execMac cell x y s
  | .msu cell x y => Sys2Proof.Machine.execMsu cell x y s
  | .add cell x => Sys2Proof.Machine.execAdd cell x s
  | .stf cell d => Sys2Proof.Machine.execStf cell d s
  | .stx cell d => Sys2Proof.Machine.execStx cell d s
  | .neg cell x d => Sys2Proof.Machine.execNeg cell x d s
  | .abs cell x d => Sys2Proof.Machine.execAbs cell x d s
  | .min cell x y d => Sys2Proof.Machine.execMin cell x y d s
  | .max cell x y d => Sys2Proof.Machine.execMax cell x y d s
  | .sel cell c x y d => Sys2Proof.Machine.execSel cell c x y d s
  | .norm cell x d => Sys2Proof.Machine.execNorm cell x d s
  | .exp cell x d => Sys2Proof.Machine.execExp cell x d s
  | .scale cell x n d => Sys2Proof.Machine.execScale cell x n d s
  | .itf cell k d => Sys2Proof.Machine.execItf cell k d s
  | .ftp cell x d => Sys2Proof.Machine.execFtp cell x d s
  | .padd cell p q d => Sys2Proof.Machine.execPadd cell p q d s
  | .phs cell p k d => Sys2Proof.Machine.execPhs cell p k d s
  | .ldx cell p init d => Sys2Proof.Machine.execLdx cell p init d s
  | .ld16 cell byte d => Sys2Proof.Machine.execLd16 cell byte d s
  | .ldu cell byte d => Sys2Proof.Machine.execLdu cell byte d s
  | .character samples times => Sys2Proof.Machine.execCharacter samples times s
  | .trackingSettledEnd => Sys2Proof.Machine.execTrackingSettledEnd s

end Sys2Proof.Machine
end

