-- ==== Sys2Proof/WellFormed.lean ====
section
/-! DEFINITION. Well-formed commands: every operand lies in the range that the spec gives it. A sender that keeps to the spec sends no
other command. -/

namespace Sys2Proof

/-- §9.6: the settings of an address register in a memory of `size` words. -/
def AddrInit.wf (size : Nat) (i : AddrInit) : Bool :=
  decide (i.b < size) && decide (i.a < size) && decide (1 ≤ i.len) && decide (i.len ≤ size)

/-- The settings of an address register, when the command brings them. -/
def initWf (size : Nat) : Option AddrInit → Bool
  | some i => i.wf size
  | none => true

/-- §9.6: the settings that an operand brings fit local memory. -/
def Opd.wf : Opd → Bool
  | .via _ i _ _ => initWf 1024 i
  | _ => true

/-- §9.6: the settings that a result place brings fit local memory. -/
def Dst.wf : Dst → Bool
  | .via _ i _ => initWf 1024 i
  | _ => true

/-- §9.6: the settings that a place of delay memory brings fit it. -/
def Place.wf : Place → Bool
  | .via _ i _ => initWf 262144 i
  | _ => true

/-- Instants that do not fall. -/
def rising : List Nat → Bool
  | a :: b :: l => decide (a ≤ b) && rising (b :: l)
  | _ => true

/-- Edges of BCK_IN in the order in which they come. -/
def edgesIn (l : List BckEdge) : Bool := rising (l.map (·.t))

/-- All five voltages lie above 0 V. -/
def StrapVolts.above (v : StrapVolts) : Bool := v.toList.all fun x : Nat => decide (0 < x)

/-- R876: the banks have 64 words each, and vectors are numbered from 1. -/
def TestRead.wf : TestRead → Bool
  | .word m i _ _ _ => m == 0 || decide (i.val < 64)
  | .vector n _ => n != 0
  | .signature _ => true

/-- R652: a calibration writes all 32 registers of a line. -/
def LineCal.wf (l : LineCal) : Bool := l.codes.length == 32

/-- R652: the calibration of a channel's two lines. -/
def ChannelCal.wf (c : ChannelCal) : Bool := c.lineA.wf && c.lineB.wf

/-- R642, R643, R659: transitions of one period in the order in which they come, in fine units from its start. -/
def transIn (l : List Nat) : Bool := rising l && l.all fun s => decide (s < 64000)

/-- The last instant of a list of edges is not later than `t`. -/
def edgesUpTo (t : Nat) (l : List BckEdge) : Bool := edgesIn l && l.all fun x => decide (x.t ≤ t)

/-- The data bytes of the system common message with status 0xF1 + `k` (Table 7-7). -/
def commonData (k : Nat) : Nat := if k = 0 ∨ k = 2 then 1 else if k = 1 then 2 else 0

/-- The operands of a command lie in their ranges. -/
def Instr.wf : Instr → Bool
  | .resetNFall => true
  | .resetNRise _ => true
  | .powerOnResetRelease _ => true
  | .detectorTrip _ => true
  | .vbakSwitchover => true
  | .vioSwitchover => true
  | .holdLatchSet => true
  | .crystalValid _ => true
  | .crystalLoss _ => true
  | .internalReset _ => true
  | .internalResetRelease _ => true
  | .crystalStartTimeout _ => true
  | .loopStart _ => true
  | .lockDeclared _ => true
  | .unlockDeclared _ => true
  | .loopLockTimeout _ => true
  | .relockAccepted _ => true
  | .retuneStart => true
  | .unmuteStart => true
  | .trackingSettled => true
  | .frameStrobe => true
  | .counterTick _ => true
  | .frameComputationStart _ => true
  | .frameComputationComplete => true
  | .strapBurst _ _ _ _ r => r.a.above && r.b.above && r.c.above && r.d.above
  | .directoryCheck => true
  | .thermosStep => true
  | .meadowSelfTest _ _ _ => true
  | .delayLineCalibration x y => x.wf && y.wf
  | .contentScan => true
  | .partPreparation => true
  | .steepLate _ => true
  | .chimeEnd => true
  | .conversionComplete _ vref => decide (0 < vref)
  | .receiverArmed _ => true
  | .syncCharacter edges _ => decide (10 ≤ edges.length) && rising edges
  | .syncCandidateRejected c => rising c.edges && c.edges.all fun x => decide (x ≤ c.t)
  | .framingError t rise => decide (t ≤ rise)
  | .idleLine _ => true
  | .noteOff _ _ _ _ => true
  | .noteOn _ _ _ _ => true
  | .polyKeyPressure _ _ _ _ => true
  | .controlChange _ _ _ _ => true
  | .bankSelectMsb _ _ _ => true
  | .dataEntryMsb _ _ _ => true
  | .dataEntryLsb _ _ _ => true
  | .partVolume _ _ _ => true
  | .pan _ _ _ => true
  | .macros _ _ _ _ => true
  | .sustain _ _ _ => true
  | .portamento _ _ _ => true
  | .sostenuto _ _ _ => true
  | .rpnSelect _ _ _ _ => true
  | .nrpnSelect _ _ _ _ => true
  | .allSoundOff _ _ _ => true
  | .resetAllControllers _ _ _ => true
  | .allNotesOff _ _ _ _ => true
  | .programChange _ _ _ => true
  | .channelPressure _ _ _ => true
  | .pitchBend _ _ _ _ => true
  | .systemExclusive _ _ => true
  | .systemCommon k data _ => decide (data.length ≤ commonData k.val)
  | .timingClock _ => true
  | .startPlay _ => true
  | .continuePlay _ => true
  | .stopPlay _ => true
  | .ignoredRealTime _ _ => true
  | .externalModeExit _ => true
  | .regularFrame => true
  | .faultFrame => true
  | .statusLoadFrame => true
  | .inputLock edges => edgesIn edges
  | .decisionInstant edges t => edgesUpTo t edges
  | .switchingPeriod _ rises falls _ => transIn rises && transIn falls
  | .routineCycle _ _ => true
  | .lineCalibrationComplete _ codes found => LineCal.wf ⟨codes, found.flips, found.dev⟩
  | .trimStart _ => true
  | .trimEnd _ _ => true
  | .trimRequestTimeout _ => true
  | .pulseDistanceCodeFrame runs _ => !runs.isEmpty
  | .pulseDistanceRepeatFrame runs _ => !runs.isEmpty
  | .biPhaseFrame runs _ => !runs.isEmpty
  | .chainTimeout _ => true
  | .flood a => !a.runs.isEmpty
  | .floodEnd _ => true
  | .debounceChange _ => true
  | .switchRepeat _ => true
  | .switchLong _ => true
  | .rotation => true
  | .roleMove _ => true
  | .cellTestComplete _ reads => reads.all TestRead.wf
  | .loadInfo _ => true
  | .loadOpen _ _ _ _ => true
  | .loadSection _ _ _ _ => true
  | .loadData _ _ bytes _ => decide (bytes.length ≤ 1024)
  | .loadSeal _ _ => true
  | .loadClose _ _ => true
  | .loadAbort _ => true
  | .acknowledgement => true
  | .volumeStep _ => true
  | .volumeSet _ => true
  | .muteToggle => true
  | .mute => true
  | .unmute => true
  | .sourceSet _ => true
  | .sourceCycle => true
  | .profileSet _ => true
  | .profileStep _ => true
  | .patchSet _ _ _ => true
  | .patchStep _ _ => true
  | .macroSet _ _ _ => true
  | .macroStep _ _ _ => true
  | .tap => true
  | .tempoStep _ => true
  | .transport _ => true
  | .ccSend _ _ _ => true
  | .note _ _ _ => true
  | .counter _ _ => true
  | .pinSet _ => true
  | .pinClear _ => true
  | .pinToggle _ => true
  | .pinLevel _ _ => true
  | .duck _ _ => true
  | .wetSet _ _ => true
  | .clr _ => true
  | .lda _ x => x.wf
  | .mul _ x y => x.wf && y.wf
  | .mac _ x y => x.wf && y.wf
  | .msu _ x y => x.wf && y.wf
  | .add _ x => x.wf
  | .stf _ d => d.wf
  | .stx _ none => true
  | .stx _ (some p) => p.wf
  | .neg _ x d => x.wf && d.wf
  | .abs _ x d => x.wf && d.wf
  | .min _ x y d => x.wf && y.wf && d.wf
  | .max _ x y d => x.wf && y.wf && d.wf
  | .sel _ c x y d => c.wf && x.wf && y.wf && d.wf
  | .norm _ x d => x.wf && d.wf
  | .exp _ x d => x.wf && d.wf
  | .scale _ x n d => x.wf && n.wf && d.wf
  | .itf _ x d => x.wf && d.wf
  | .ftp _ x d => x.wf && d.wf
  | .padd _ p q d => p.wf && q.wf && d.wf
  | .phs _ p _ d => p.wf && d.wf
  | .ldx _ p init d => (p.place init).wf && d.wf
  | .ld16 _ _ d => d.wf
  | .ldu _ _ d => d.wf
  | .character _ c => decide (c.t ≤ c.rise)
  | .trackingSettledEnd => true

/-- R46: the order of the sources of events that complete at one instant: the event port, then the remote control. -/
def portRank : Nat := 0

/-- The rank of the remote control. -/
def irRank : Nat := 1

/-- The instant at which the event of a command completes, with the rank of its source, where the command carries its instant; the events of
the dial converter and of the tempo counters come with their own commands, which fall at strobes and ticks (R45, R46). -/
def Instr.completes : Instr → Option (Nat × Nat)
  | .noteOff _ _ _ t | .noteOn _ _ _ t | .polyKeyPressure _ _ _ t | .controlChange _ _ _ t | .bankSelectMsb _ _ t | .dataEntryMsb _ _ t
  | .dataEntryLsb _ _ t | .partVolume _ _ t | .pan _ _ t | .macros _ _ _ t | .sustain _ _ t | .portamento _ _ t | .sostenuto _ _ t
  | .rpnSelect _ _ _ t | .nrpnSelect _ _ _ t | .allSoundOff _ _ t | .resetAllControllers _ _ t | .allNotesOff _ _ _ t | .programChange _ _ t
  | .channelPressure _ _ t | .pitchBend _ _ _ t | .systemExclusive _ t | .systemCommon _ _ t | .timingClock t | .startPlay t | .continuePlay t
  | .stopPlay t | .ignoredRealTime _ t => some (t, portRank)
  | .pulseDistanceCodeFrame _ t | .pulseDistanceRepeatFrame _ t | .biPhaseFrame _ t | .chainTimeout t => some (t, irRank)
  | _ => none

/-- R46: commands that carry the instant of their event stand in the queue in the order of completion, and of those that complete at one
instant the event port comes before the remote control (log 6). -/
def queueWf (l : List Instr) : Bool :=
  let xs := l.filterMap Instr.completes
  xs.Pairwise (fun a b => a.1 < b.1 ∨ a.1 = b.1 ∧ a.2 ≤ b.2)

end Sys2Proof
end

