-- ==== Sys2Proof/Safety.lean ====
section
/-! DEFINITION. What counts as a sound state of the machine, and the conditions on a state under which the claims say what a command
does: running, no event waiting, no binding in use, a receiver at rest. -/

namespace Sys2Proof.Machine

/-! ## The invariant -/

/-- Every listed index lies below `n`. -/
def indicesBelow {α : Type} (n : Nat) (l : List (Nat × α)) : Bool := l.all fun x => decide (x.1 < n)

/-- A memory of `n` words in its canonical form (Table 9-1). -/
def wordsOk (n : Nat) (l : List (Nat × W32)) : Bool := sparseOk 0#32 0 l && indicesBelow n l

/-- The registers of one cell: the accumulator holds a value of R364, the three memories lie inside Table 9-1 in canonical form, and there
are eight address registers. -/
def Cell.ok (k : Cell) : Bool :=
  accOk k.acc && wordsOk 1024 k.localMem && wordsOk 64 k.active && wordsOk 64 k.shadow && k.addr.length == 8

/-- The caddy in canonical form, inside R723. -/
def caddyOk (m : Memory) : Bool := Memory.wf m && indicesBelow 4194304 m

/-- The stores of the frame under way name cells and places that exist (R384, R385). -/
def dnewOk (l : List (Nat × Nat × W24)) : Bool := l.all fun x => decide (x.1 < 192) && decide (x.2.1 < 262144)

/-- What every step keeps: the stores in canonical form and inside their bounds, the cells of Table 9-1, the 64 words of the thermos
(R99), and the engine cleared while a reset holds it (R37). -/
def State.Inv (s : State) : Prop :=
  caddyOk s.caddy = true ∧ s.cells.length = 192 ∧ s.cells.all Cell.ok = true ∧ dnewOk s.dnew = true ∧ s.thermos.words.length = 64 ∧
    (s.running = false → s.eng = s.eng.inReset)

/-! ## Conditions on a state -/

/-- No event waits for the bindings. -/
def State.calm (s : State) : Prop := s.eng.evq = []

/-- None of the 64 bindings names a source and none of the 12 dials names a target in the image `im` (Tables 20-6 and 20-10). -/
def Unbound (c : Memory) (im : Image) : Prop :=
  (∀ b < 64, slotBits 7 0 (bindSlot c im b 0) = 0) ∧ ∀ i < 12, slotBits 7 0 (dialSlot c im i 4) = 0

/-- No binding and no dial target is in use. -/
def State.unbound (s : State) : Prop := Unbound s.caddy s.eng.image

/-- The engine runs, no event waits, and no binding or dial target would act on one. -/
def State.quiet (s : State) : Prop := s.running = true ∧ s.calm ∧ s.unbound

/-- Full service has begun (R171). -/
def State.inService (s : State) : Prop := s.quiet ∧ s.eng.served = true

/-- The receiver takes the MIDI character whose stop sample falls at `t`, and no message is in progress. -/
def State.listening (t : Nat) (s : State) : Prop :=
  midiDue t s.eng = true ∧ s.eng.link.parser.status = none ∧ s.eng.link.parser.data = [] ∧ s.eng.link.parser.sysex = false

/-- In full service, between two messages, at `t`. -/
def State.hears (t : Nat) (s : State) : Prop := s.inService ∧ s.listening t

/-- Before full service in Play or Bench mode, between two messages, with no event waiting, at `t`. -/
def State.steeping (t : Nat) (s : State) : Prop := s.running = true ∧ s.calm ∧ s.eng.served = false ∧ s.listening t

/-- The stamp of an event that completes at `t` (R26, R45). -/
def stampAt (t : Nat) (e : Engine) : Nat := (e.seen (t : Rat)).stamp

/-- The frame in which an event that completes at `t` takes effect (R27). -/
def targetAt (t : Nat) (e : Engine) : Nat := stampAt t e + 5

/-- The instants at which the events of the waiting commands complete, up to the next frame strobe, each with the rank of its source: the
event port, the remote control, the dial converter, the tempo counters (R46), the general pins (R708). `i` counts the ticks of the frame so
far. -/
def completions (e : Engine) : Nat → List Instr → List (Time × Nat)
  | _, [] => []
  | i, c :: r =>
    match c with
    | .frameStrobe => []
    | .counterTick _ => (tickAt e i, 3) :: completions e (i + 1) r
    | .conversionComplete _ _ => (e.strobe.last, 2) :: completions e i r
    | .character _ ts => (stopSample ts.t e, portRank) :: completions e i r
    | .debounceChange _ | .switchRepeat _ | .switchLong _ => (tickAt e (i - 1), 4) :: completions e i r
    | c => (c.completes.map fun x => ((x.1 : Rat), x.2)).toList ++ completions e i r

/-- R46, R708: the commands that wait stand in the order in which their events complete, and where two complete at one instant in the order
of their sources (log 6). -/
def State.ordered (s : State) : Prop :=
  (completions s.eng s.eng.strobe.tick s.pending).Pairwise fun a b => a.1 < b.1 ∨ a.1 = b.1 ∧ a.2 ≤ b.2

/-- The bytes of a channel message row, with the instant of its last byte (Tables 7-4 and 7-5). -/
def channelMessage : Instr → Option (List Byte × Nat)
  | .noteOff ch n v t => some ([0x80#8 ||| ch.setWidth 8, n.setWidth 8, v.setWidth 8], t)
  | .noteOn ch n v t => some ([0x90#8 ||| ch.setWidth 8, n.setWidth 8, v.setWidth 8], t)
  | .polyKeyPressure ch n p t => some ([0xA0#8 ||| ch.setWidth 8, n.setWidth 8, p.setWidth 8], t)
  | .controlChange ch k v t => some ([0xB0#8 ||| ch.setWidth 8, k.setWidth 8, v.setWidth 8], t)
  | .bankSelectMsb ch v t => some ([0xB0#8 ||| ch.setWidth 8, 0#8, v.setWidth 8], t)
  | .dataEntryMsb ch v t => some ([0xB0#8 ||| ch.setWidth 8, 6#8, v.setWidth 8], t)
  | .dataEntryLsb ch v t => some ([0xB0#8 ||| ch.setWidth 8, 38#8, v.setWidth 8], t)
  | .partVolume ch v t => some ([0xB0#8 ||| ch.setWidth 8, 7#8, v.setWidth 8], t)
  | .pan ch v t => some ([0xB0#8 ||| ch.setWidth 8, 10#8, v.setWidth 8], t)
  | .macros ch m v t => some ([0xB0#8 ||| ch.setWidth 8, nth 0#8 [16#8, 17#8, 18#8, 19#8, 80#8, 81#8, 82#8, 83#8] m.val, v.setWidth 8], t)
  | .sustain ch v t => some ([0xB0#8 ||| ch.setWidth 8, 64#8, v.setWidth 8], t)
  | .portamento ch v t => some ([0xB0#8 ||| ch.setWidth 8, 65#8, v.setWidth 8], t)
  | .sostenuto ch v t => some ([0xB0#8 ||| ch.setWidth 8, 66#8, v.setWidth 8], t)
  | .rpnSelect ch m v t => some ([0xB0#8 ||| ch.setWidth 8, if m then 101#8 else 100#8, v.setWidth 8], t)
  | .nrpnSelect ch m v t => some ([0xB0#8 ||| ch.setWidth 8, if m then 99#8 else 98#8, v.setWidth 8], t)
  | .allSoundOff ch v t => some ([0xB0#8 ||| ch.setWidth 8, 120#8, v.setWidth 8], t)
  | .resetAllControllers ch v t => some ([0xB0#8 ||| ch.setWidth 8, 121#8, v.setWidth 8], t)
  | .allNotesOff ch k v t => some ([0xB0#8 ||| ch.setWidth 8, BitVec.ofNat 8 (123 + k.val), v.setWidth 8], t)
  | .programChange ch p t => some ([0xC0#8 ||| ch.setWidth 8, p.setWidth 8], t)
  | .channelPressure ch p t => some ([0xD0#8 ||| ch.setWidth 8, p.setWidth 8], t)
  | .pitchBend ch lsb msb t => some ([0xE0#8 ||| ch.setWidth 8, lsb.setWidth 8, msb.setWidth 8], t)
  | _ => none

/-- The byte of a real-time row with its instant (Table 7-7). -/
def realTimeMessage : Instr → Option (Byte × Nat)
  | .timingClock t => some (0xF8#8, t)
  | .startPlay t => some (0xFA#8, t)
  | .continuePlay t => some (0xFB#8, t)
  | .stopPlay t => some (0xFC#8, t)
  | .ignoredRealTime k t => some (nth 0#8 [0xF9#8, 0xFD#8, 0xFE#8, 0xFF#8] k.val, t)
  | _ => none

/-- The engine after it has heard a whole channel message with status byte `st` at `t`, apart from what the message does: running status, the
reference of the idle line, no event left. -/
def heardAs (st : Byte) (t : Nat) (e : Engine) : Engine :=
  { e with
    now := max e.now (t : Rat)
    evq := []
    link := { e.link with parser := ⟨some st, none, [], false⟩, ref := some (t : Rat) } }

/-- A change of the record of the part of channel `ch`, for the target frame and every later one (R281). -/
def recorded (ch : BitVec 4) (r : PartRec) (e : Engine) : Engine :=
  { e with parts := e.parts.set ch.toNat r, partChg := e.partChg ++ [(e.target, ch.toNat, r)] }

/-- The engine after a control change of channel `ch` at `t` that leaves the part record `r`. -/
def controlled (ch : BitVec 4) (t : Nat) (e : Engine) (r : PartRec) : Engine := recorded ch r (heardAs (0xB0#8 ||| ch.setWidth 8) t e)

/-- The part of channel `ch` (R280). -/
def partOf (ch : BitVec 4) : Nat := ch.toNat + 1

/-- In Load mode with the receiver armed and the last load frame answered (R739, R742): the next frame, which begins at `t`, is carried out. -/
def State.serving (s : State) (t : Nat) (seq : Byte) : Prop :=
  s.running = true ∧ s.eng.mode = .load ∧ s.eng.load.begun = true ∧ s.eng.link.armed = true ∧ s.eng.link.tr.isSome = true ∧
    s.eng.link.sync = false ∧ (∀ r, s.eng.link.ref = some r → r ≤ (t : Rat)) ∧ s.eng.link.rx = [] ∧
    s.eng.load.ackDue = none ∧ s.eng.load.ackStop ≤ (t : Rat) ∧
    (s.eng.load.recorded = none ∨ ∃ q k a, s.eng.load.recorded = some (q, k, a) ∧ seq = q + 1#8)

/-- What does not survive a reset is cleared, the crystal monitor apart; the queue, the thermos and the caddy stay (Table 1-7, Table 2-6). -/
def Cleared (s t : State) : Prop :=
  t.pending = s.pending ∧ t.thermos = s.thermos ∧ t.caddy = s.caddy ∧ t.cells = List.replicate 192 Cell.zero ∧ t.dnew = [] ∧
    t.eng = { Engine.cleared with kettle := { Kettle.zero with crystal := t.eng.kettle.crystal } }

/-- The engine starts at t0 with MODE[2:0] at `m` (R8, R66, Table 6-1): cleared but for the supplies, in the mode of the table, with
MODE_RESERVED pending where the value is reserved, the calibration of the caddy in force (R786), and nothing of steep done. -/
def StartsAt (m : BitVec 3) (s t : State) : Prop :=
  t.running = true ∧ t.pending = s.pending ∧ t.thermos = s.thermos ∧ t.caddy = s.caddy ∧ t.cells = List.replicate 192 Cell.zero ∧ t.dnew = [] ∧
    t.power.vbak = s.power.vbak ∧ t.eng.modePins = m.toNat ∧
    t.eng.mode = (if m = 0 then Mode.play else if m = 2 then Mode.load else Mode.bench) ∧
    t.eng.faults.pend = (if m = 1 ∨ m = 3 ∨ m = 4 ∨ m = 6 ∨ m = 7 then [⟨0x05, 1, (0, 0)⟩] else []) ∧
    t.eng.image.calCopy = calCopyOf s.caddy ∧ t.eng.image.cal = calOf s.caddy ∧ t.eng.now = 0 ∧
    t.eng.kettle = { Kettle.zero with crystal := s.eng.kettle.crystal } ∧ t.eng.steep = Steep.zero ∧ t.eng.strobe = ⟨false, 0, 0, 0⟩ ∧
    t.eng.cond.limit = 256 ∧ t.eng.pins.ready = false

/-- Nothing that the cells have left changes the voices: no frame hangs, no cell has failed. -/
def State.sound (s : State) : Prop :=
  (∀ f ∈ s.eng.fifo.frames, f.stuck = []) ∧ s.eng.health.parity = [] ∧ s.eng.health.news = []

/-- What F needs besides its strobe (R170, R171). -/
def State.ripe (s : State) (n : Nat) : Prop :=
  s.eng.mode ≠ .load ∧ s.eng.strobe.started = true ∧ n = s.eng.strobe.n + 1 ∧ s.eng.steep.f = none ∧ s.eng.kettle.firstLock = true ∧
    s.eng.steep.b4 = true ∧ s.eng.steep.b5 = true ∧ s.eng.steep.b7 = true ∧ s.eng.steep.b9 = true ∧ (s.eng.steep.b10 = true ∨ 432 ≤ n) ∧
    (∃ p, s.eng.steep.p = some p ∧ p ≤ n) ∧ s.sound

/-- The engine runs with a crystal that has not been lost. -/
def State.clocked (s : State) : Prop := s.running = true ∧ s.eng.kettle.crystal = true ∧ s.eng.kettle.down = none

/-- The machine with the engine `w`, once the events that wait have been offered to bindings none of which they meet. -/
def State.acted (s : State) (w : Engine) : State := { s with eng := { w with evq := [] } }

/-- As `acted`, for a command whose instant is known: at a strobe the fault events wait for what else is found there, and FAULT_N and T05
follow at once (R864, R866, R868). -/
def State.actedAt (s : State) (w : Engine) : State :=
  if w.atStrobe then ({ s with eng := { w with evq := w.evq.filter Ev.isFault } } : State).strobeTail else s.acted w

/-- GP0 to GP15 as the functions of priority 2 and 3 drive them in the engine `w`; every other pin stands as before (R62, R63, R82, R148). -/
def pinsFollow (c : Memory) (w : Engine) : List PinDrive :=
  (List.range 16).map fun p => (fixedDrive c w p).getD (nth (.input .down) w.pins.gp p)

/-- The fault `code` where `b` holds. -/
def only (b : Bool) (code : Nat) : List Nat := if b then [code] else []

/-- The frames of 2 ms (R937, Table 0-4). -/
def framesIn2ms : Fam → Nat
  | .f48 => 192
  | .f44 => 176

/-- The family after an unlock: that of the relock under way, where its loop has not changed yet, else the present one (R153, R940). -/
def famAfterUnlock (k : Kettle) : Fam :=
  match k.relock with
  | .mute g => g
  | _ => k.fam

/-! ## Kinds of command -/

/-- A command of the datapath of one cell (Table 9-4). -/
def onDatapath : Instr → Bool
  | .clr _ | .lda .. | .mul .. | .mac .. | .msu .. | .add .. | .stf .. | .stx .. | .neg .. | .abs .. | .min .. | .max .. | .sel ..
  | .norm .. | .exp .. | .scale .. | .itf .. | .ftp .. | .padd .. | .phs .. | .ldx .. | .ld16 .. | .ldu .. => true
  | _ => false

/-- A command that enters or leaves a reset. -/
def onReset : Instr → Bool
  | .resetNFall | .resetNRise _ | .powerOnResetRelease _ | .detectorTrip _ | .internalReset _ | .internalResetRelease _ => true
  | _ => false

/-- A command of a supply or of a monitor that works through a reset (Table 2-6, R97, R109). -/
def onSupply : Instr → Bool
  | .vbakSwitchover | .vioSwitchover | .holdLatchSet | .crystalValid _ | .crystalLoss _ => true
  | _ => false

/-- A command that may write the caddy: a load frame, whole or character by character (R720, R741). -/
def writesCaddy : Instr → Bool
  | .loadOpen .. | .loadData .. | .loadSeal .. | .loadClose .. | .idleLine _ => true
  | _ => false

/-- A command that may write thermos words: the thermos step, a strobe, an internal reset (R106, R107, R115, R152), and the commands that
can raise a retained fault at the instant of a strobe, which belongs to the unit of that strobe (R864). -/
def writesThermos : Instr → Bool
  | .thermosStep | .frameStrobe | .internalReset _ | .crystalStartTimeout _ | .crystalLoss _ | .unlockDeclared _ | .loopLockTimeout _
  | .retuneStart | .unmuteStart | .steepLate _ | .conversionComplete _ _ | .routineCycle _ _ | .trimStart _ | .trimEnd _ _
  | .trimRequestTimeout _ | .roleMove _ => true
  | _ => false

/-- A command that sets the hold latch or clears it (R109, R115). -/
def setsHold : Instr → Bool
  | .thermosStep | .holdLatchSet => true
  | _ => false

end Sys2Proof.Machine
end

