-- ==== Sys2Proof/Certificates/Slice0/Obligations.lean ====
section
/-! DEFINITION. The statements for the provers. -/

open Sys2Proof Sys2Proof.Machine

/-- A step runs the command at the front of the queue on the machine with the queue's rest; an empty queue leaves the machine as it is. -/
def Obligations.StepRunsFront : Prop :=
  (∀ (c : Instr) (r : List Instr) (s : State), step { s with pending := c :: r } = exec c { s with pending := r }) ∧
    ∀ s : State, s.pending = [] → step s = .next s

/-- The machine after reset satisfies the invariant. -/
def Obligations.ResetInv : Prop := State.reset.Inv

/-- Every step keeps the invariant. -/
def Obligations.StepKeepsInv : Prop := ∀ s t : State, s.Inv → step s = .next t → t.Inv

/-- Every command answers a next state in every state: none is refused and none ends in a fault. For the operations of the datapath R400
says so; that no other command stops is the model's choice: a command that cannot come about where it stands changes nothing (log 8), and a
fault of Table 21-4 is state and no end of the run (log 69). -/
def Obligations.EveryCommandRuns : Prop := ∀ (i : Instr) (s : State), ∃ t, exec i s = .next t

/-- While a reset holds the engine, only the reset rows, the supplies and the crystal monitor, and the datapath change anything. -/
def Obligations.ResetHoldsTheEngine : Prop :=
  ∀ (i : Instr) (s : State), s.running = false → onReset i = false → onSupply i = false → onDatapath i = false → exec i s = .next s

/-- Only load service writes the caddy. -/
def OnlyLoadWritesCaddy : Prop :=
  ∀ (i : Instr) (s t : State), exec i s = .next t → writesCaddy i = false → t.caddy = s.caddy

/-- Thermos words change only with the thermos step, at an internal reset, at a frame strobe and with the commands that may raise a retained
fault at the instant of one (R106, R864); the hold latch only with its own row and with the thermos step. -/
def ThermosWriters : Prop :=
  ∀ (i : Instr) (s t : State), exec i s = .next t →
    (writesThermos i = false → t.thermos.words = s.thermos.words ∧ t.thermos.tc = s.thermos.tc) ∧
      (setsHold i = false → t.thermos.hold = s.thermos.hold)

/-- The registers of the cells change only with the datapath, with the banks of a frame, with a role that moves, with a cell test, which
leaves its patterns (log 101), and with a reset; no command touches the queue. -/
def CellWriters : Prop :=
  ∀ (i : Instr) (s t : State), exec i s = .next t →
    t.pending = s.pending ∧
      (onDatapath i = false → onReset i = false → (∀ bad, i ≠ .frameComputationStart bad) → (∀ k, i ≠ .roleMove k) →
        (∀ k l, i ≠ .cellTestComplete k l) → t.cells = s.cells ∧ t.dnew = s.dnew)

/-- Which commands write the caddy, the thermos and the cells. -/
def Obligations.MemoriesHaveTheirWriters : Prop := OnlyLoadWritesCaddy ∧ ThermosWriters ∧ CellWriters

/-! ## Resets, supplies and the kettle -/

/-- RESET_N falling clears the engine; the thermos and the caddy stay. -/
def ResetNFallClears : Prop :=
  ∀ s : State, ∃ t, exec .resetNFall s = .next t ∧ Cleared s t ∧ t.power = { s.power with resetN := false } ∧
    t.eng.kettle.crystal = s.eng.kettle.crystal

/-- The power-on reset that a detector begins. -/
def DetectorTripResets : Prop :=
  ∀ (r : Rail) (s : State), ∃ t, exec (.detectorTrip r) s = .next t ∧ Cleared s t ∧
    t.power = { s.power with por := true, internal := false, low := t.power.low } ∧ (∀ x, x ∈ t.power.low ↔ x = r ∨ x ∈ s.power.low) ∧
    t.eng.kettle.crystal = (s.eng.kettle.crystal && decide (r ≠ .vpll)) ∧ t.running = false

/-- RESET_N and the detectors clear the engine. -/
def Obligations.ResetsClearTheEngine : Prop := ResetNFallClears ∧ DetectorTripResets

/-- A release that leaves another reset only ends its own; the last release gives t0. -/
def Obligations.LastReleaseStarts : Prop :=
  (∀ (m : BitVec 3) (s : State), s.power.resetN = false → ∃ t, exec (.resetNRise m) s = .next t ∧
    (s.power.por = false → s.power.internal = false → StartsAt m s t) ∧
      (s.power.por = true ∨ s.power.internal = true → t = { s with power := { s.power with resetN := true } })) ∧
    (∀ (m : BitVec 3) (s : State), s.power.por = true → ∃ t, exec (.powerOnResetRelease m) s = .next t ∧
      (s.power.resetN = true → s.power.internal = false → StartsAt m s t) ∧
        (s.power.resetN = false ∨ s.power.internal = true → t = { s with power := { s.power with por := false, low := [] } })) ∧
      ∀ (m : BitVec 3) (s : State), s.power.internal = true → ∃ t, exec (.internalResetRelease m) s = .next t ∧
        (s.power.resetN = true → s.power.por = false → StartsAt m s t) ∧
          (s.power.resetN = false ∨ s.power.por = true → t = { s with power := { s.power with internal := false } })

/-- The internal reset 1 ms after a crystal loss, and T05 before it. The values of `Cleared` where R37 names none are the model's choice
(log 1). -/
def Obligations.InternalResetBegins : Prop :=
  ∀ (t d : Nat) (s : State), s.running = true → s.eng.kettle.down = some (d : Rat) → d + 393216 ≤ t →
    ∃ u, exec (.internalReset t) s = .next u ∧ u.running = false ∧ u.power = { s.power with internal := true } ∧
      Cleared { s with thermos := u.thermos } u ∧ u.thermos.hold = s.thermos.hold ∧ u.eng.kettle.crystal = s.eng.kettle.crystal ∧
      (s.eng.mode ≠ .load → s.eng.steep.b4 = true →
        u.thermos.words = s.thermos.words.set 5 0x0001#16 ∧ u.thermos.tc = thermosCrc u.thermos.words) ∧
      (s.eng.mode = .load ∨ s.eng.steep.b4 = false → u.thermos = s.thermos)

/-- The supply of the thermos and the hold latch. -/
def ThermosSupply : Prop :=
  ∀ s : State, exec .vbakSwitchover s = .next { s with power := { s.power with vbak := true } } ∧
    exec .vioSwitchover s = .next { s with power := { s.power with vbak := false } } ∧
    exec .holdLatchSet s = .next { s with thermos := { s.thermos with hold := true } }

/-- The crystal monitor, in reset and outside it. -/
def CrystalBecomesValid : Prop :=
  (∀ (t : Nat) (s : State), s.running = true → s.calm → s.eng.kettle.crystal = false →
    exec (.crystalValid t) s = .next { s with eng := { s.eng with
      now := max s.eng.now (t : Rat), kettle := { s.eng.kettle with crystal := true, crystalAt := (t : Rat) } } }) ∧
    ∀ (t : Nat) (s : State), s.running = false → ∃ u, exec (.crystalValid t) s = .next u ∧ u.eng.kettle.crystal = true ∧
      u = { s with eng := { s.eng with kettle := { s.eng.kettle with crystal := true, crystalAt := 0 } } }

/-- KETTLE_LOSS where no crystal starts within 20 ms. -/
def CrystalStartFails : Prop :=
  ∀ (t : Nat) (s : State), s.quiet → s.eng.kettle.crystal = false → s.eng.kettle.startRaised = false → s.eng.kettle.down = none →
    7864320 ≤ t → exec (.crystalStartTimeout t) s = .next (s.actedAt { (s.eng.at t).raise 0x01 with
      kettle := { s.eng.kettle with startRaised := true } })

/-- The kettle without its crystal: neither the loop nor the carrier paces (R43, R151). -/
def kettleStopped (k : Kettle) : Kettle := { k with crystal := false, carrier := false, firstLock := false }

/-- The engine as R152 leaves it at once: every gate and clock pin low, nothing of a channel left but a pending request (R154), KETTLE_LOSS
raised, and the 1 ms to the internal reset begun at `t`; the crystal is lost or not. -/
def kettleGone (c : Memory) (t : Nat) (lost : Bool) (e : Engine) : Engine :=
  let k : Kettle := { e.kettle with
    down := some (t : Rat), locked := false, loopAt := none, relock := .none, track := .off, settled := false }
  let w := { (e.at t).raise 0x01 with
    out := { e.out with
      chans := e.out.chans.map (fun x : Chan => { Chan.zero with request := x.request }), clocks := false, words := List.replicate 4 0 }
    kettle := if lost then kettleStopped k else k }
  { w with pins := { w.pins with gp := pinsFollow c w } }

/-- The loss of the crystal, and a loop that does not lock within 20 ms; a loss in the millisecond that the second begins stops the crystal,
and that millisecond goes on (log 49). -/
def KettleLossStopsTheOutputs : Prop :=
  (∀ (t : Nat) (s : State), s.quiet → s.clocked →
    exec (.crystalLoss t) s = .next (s.actedAt (kettleGone s.caddy t true s.eng))) ∧
    (∀ (t d : Nat) (s : State), s.quiet → s.clocked → s.eng.kettle.locked = false → s.eng.kettle.loopAt = some (d : Rat) →
      d + 7864320 ≤ t → exec (.loopLockTimeout t) s = .next (s.actedAt (kettleGone s.caddy t false s.eng))) ∧
    (∀ (t : Nat) (d : Time) (w : Engine) (s : State), s.quiet → s.eng.kettle.crystal = true → s.eng.kettle.down = some d →
      w = { (s.eng.at t).raise 0x01 with kettle := kettleStopped s.eng.kettle } →
      exec (.crystalLoss t) s = .next (s.actedAt { w with pins := { w.pins with gp := pinsFollow s.caddy w } })) ∧
    ∀ (t : Nat) (s : State), s.running = false → exec (.crystalLoss t) s = .next { s with eng := { s.eng with
      kettle := { s.eng.kettle with crystal := false } } }

/-- The supply of the thermos, the hold latch and the crystal monitor; a crystal that does not start, one that is lost, and a loop that does not
lock. -/
def Obligations.KettleLossIsRaised : Prop := ThermosSupply ∧ CrystalBecomesValid ∧ CrystalStartFails ∧ KettleLossStopsTheOutputs

/-- The loop starts in the family of the policy; XFOL and WCLK take the family of the input, or 48 kHz after 12 ms without a lock. -/
def LoopStartFamily : Prop :=
  ∀ (t : Nat) (f : Fam) (s : State), s.clocked → s.calm → s.eng.steep.b1 = true → s.eng.kettle.firstLock = false → s.eng.kettle.loopAt = none →
    (policy s.eng = .xf48 ∧ f = .f48 ∨ policy s.eng = .xf44 ∧ f = .f44 ∨
      (policy s.eng = .xfol ∨ policy s.eng = .wclk) ∧ (inputFam s.eng = some f ∨
        inputFam s.eng = none ∧ f = .f48 ∧ s.eng.kettle.crystalAt + msT 12 ≤ (t : Rat))) →
    ∃ u, exec (.loopStart t) s = .next u ∧
      u = { s with eng := { s.eng with
        now := max s.eng.now (t : Rat), rs := u.eng.rs, gin := u.eng.gin
        kettle := { s.eng.kettle with fam := f, loopAt := some (t : Rat) } } } ∧
      (s.eng.rs = none → u.eng.rs = none) ∧ u.eng.gin.words = s.eng.gin.words

/-- LOCK_DECLARED: the first lock (R131), and the lock that ends a relock or a recovery (R145, R669): the clocks run outside Load mode with
their pins, and both lines of every channel that B6 or B7 has calibrated are calibrated again (log 41: R669 speaks of the modulating
channels). -/
def LockCompletes : Prop :=
  ∀ (t d : Nat) (s : State), s.quiet → s.clocked → s.eng.kettle.locked = false → s.eng.kettle.loopAt = some (d : Rat) →
    s.eng.out.chans.length = 4 →
    ∃ u, exec (.lockDeclared t) s = .next u ∧
      u.eng.kettle.locked = true ∧ u.eng.kettle.firstLock = true ∧ u.eng.kettle.tLock = (t : Rat) ∧ u.eng.kettle.loopAt = none ∧
      u.eng.kettle.fam = s.eng.kettle.fam ∧ u.eng.kettle.handback = s.eng.kettle.firstLock ∧
      u.eng.kettle.relock = (if s.eng.kettle.firstLock = true then .settle else .none) ∧
      u.eng.out.clocks = decide (s.eng.mode ≠ .load) ∧
      (∀ i < 4, u.eng.chan i = if s.eng.kettle.firstLock = true ∧ calibratedChan s.eng i = true then
        { s.eng.chan i with cycle := true, both := true, pair := true, activeOk := false } else s.eng.chan i) ∧
      u.eng.pins.gp = pinsFollow s.caddy { s.eng with out := { s.eng.out with clocks := decide (s.eng.mode ≠ .load) } } ∧
      u = { s with eng := { s.eng with
        now := max s.eng.now (t : Rat), evq := [], kettle := u.eng.kettle, out := { s.eng.out with chans := u.eng.out.chans, clocks := u.eng.out.clocks }
        faults := u.eng.faults, pins := u.eng.pins, rs := u.eng.rs, steep := u.eng.steep, mix := u.eng.mix, mixLive := u.eng.mixLive
        mixChg := u.eng.mixChg } } ∧
      (s.eng.kettle.firstLock = false ∨ s.eng.served = false → u.eng.steep = s.eng.steep ∧ u.eng.mix = s.eng.mix ∧
        u.eng.mixLive = s.eng.mixLive ∧ u.eng.mixChg = s.eng.mixChg) ∧
      (policy s.eng ≠ .wclk ∨ s.eng.strobe.started = false → u.eng.faults = s.eng.faults ∧ u.eng.rs = s.eng.rs ∧
        u.eng.pins.faultLow = s.eng.pins.faultLow)

/-- The lock, with the loop's start before it. -/
def Obligations.LockDeclared : Prop := LoopStartFamily ∧ LockCompletes

/-- UNLOCK_DECLARED: KETTLE_LOSS, the outputs muted at once, the carrier on the crystal (R153, R144, R49). The next frame to compute stays
the one it was (log 53), the carrier's origin bears no tick (log 98); the counters change as a change of family changes them (R560), and a
crossfade that the mute covers waits for the unmute (R205). -/
def Obligations.UnlockMutesAndRecovers : Prop :=
  ∀ (t : Nat) (s : State), s.quiet → s.clocked → s.eng.kettle.locked = true → ∃ w : Engine, exec (.unlockDeclared t) s = .next (s.actedAt w) ∧
    w.kettle = { s.eng.kettle with
      fam := famAfterUnlock s.eng.kettle, locked := false, tRT := (t : Rat), loopAt := some (t : Rat), carrier := true
      origin := ((16 * ((t + 15) / 16) : Nat) : Rat), carrierK := 0, handback := false, clamp := true, phAt := none, relock := .retune
      recovery := s.eng.kettle.recovery || decide (s.eng.kettle.relock = .none), track := .off, steer := 0, settled := false, place := true } ∧
    w.out = { s.eng.out with
      gK := ⟨0, 0, 0, 1⟩, clocks := false, held := true, chans := s.eng.out.chans.map fun x => chanLinesLost (chanAtRT true x) } ∧
    w.pins = { ((s.eng.at t).raise 0x01).pins with gp := pinsFollow s.caddy { s.eng with out := { s.eng.out with clocks := false } } } ∧
    w = { (s.eng.at t).raise 0x01 with
      free := w.free, kettle := w.kettle, fifo := { s.eng.fifo with frames := [], missRun := 0 }, out := w.out, pins := w.pins
      strobe := { s.eng.strobe with tick := 1 }, tempo := w.tempo, steep := { s.eng.steep with xAt := w.steep.xAt }
      cond := { s.eng.cond with fenceOn := false } } ∧
    (s.eng.served = false ∨ s.eng.mode = .load → w.tempo = s.eng.tempo ∧ w.free = s.eng.free) ∧
    w.steep.xAt = s.eng.steep.xAt.filter fun x => decide (x < s.eng.strobe.n)

/-- RELOCK_ACCEPTED: KETTLE_RELOCK raised and the outputs ramped down over 2 ms, once the input has been locked in the other family for 50
ms; a crossfade that the mute covers waits for the unmute (R205). The policies XF48 and XF44 accept none (R138); there, before the 50 ms are
over (R156), where the input is not locked in the other family, and while a relock runs or the loop is not locked, it changes nothing (log
8). -/
def Obligations.RelockBegins : Prop :=
  (∀ (t d a : Nat) (g : Slide) (s : State), s.quiet → s.clocked → s.eng.kettle.other = some (d : Rat) →
    (policy s.eng = .xfol ∨ policy s.eng = .wclk) →
    s.eng.kettle.relock = .none → s.eng.kettle.locked = true → inputFam s.eng = some s.eng.kettle.fam.other → d + 19660800 ≤ t →
    a = (if s.eng.strobe.started = true then (if (t : Rat) ≤ s.eng.strobe.last then s.eng.strobe.n else s.eng.strobe.n + 1) else 0) →
    g = ⟨s.eng.out.gK.at (a - 1), 0, a + 1, framesIn2ms s.eng.kettle.fam⟩ →
    exec (.relockAccepted t) s = .next (s.acted { (s.eng.at t).raise 0x02 with
      out := { s.eng.out with gK := g }
      kettle := { s.eng.kettle with relock := .mute s.eng.kettle.fam.other, tRel := (t : Rat), recovery := false }
      steep := { s.eng.steep with xAt := s.eng.steep.xAt.filter fun x => decide (x < a) }
      fifo := { s.eng.fifo with frames := match s.eng.steep.xAt with
        | some x => if a ≤ x then s.eng.fifo.frames.map (fun r => if x ≤ r.n then { r with samples := r.pass } else r) else s.eng.fifo.frames
        | none => s.eng.fifo.frames } })) ∧
    ∀ (t : Nat) (s : State), s.calm → (s.eng.kettle.other = none ∨ s.eng.kettle.locked = false ∨ s.eng.kettle.relock ≠ .none ∨
      s.eng.kettle.crystal = false ∨ s.eng.kettle.down.isSome = true ∨ policy s.eng = .xf48 ∨ policy s.eng = .xf44 ∨
      inputFam s.eng ≠ some s.eng.kettle.fam.other ∨ (∃ d : Nat, s.eng.kettle.other = some (d : Rat) ∧ t < d + 19660800)) →
      exec (.relockAccepted t) s = .next s

/-- RETUNE_START: at the first strobe 2 ms after tREL the loop changes its family, the carrier runs on the crystal and the output FIFO is
emptied, the next frame to compute staying the one it was (log 53); the lines of every channel have still to pass in the new family. -/
def RetuneStarts : Prop :=
  ∀ (d : Nat) (f : Fam) (s : State), s.quiet → s.clocked → s.eng.kettle.relock = .mute f → s.eng.kettle.tRel = (d : Rat) →
    s.eng.strobe.started = true → (d : Rat) + 786432 ≤ s.eng.strobe.last →
    ∃ w : Engine, exec .retuneStart s = .next (s.actedAt w) ∧
      w.kettle = { s.eng.kettle with
        fam := f, locked := false, tRT := s.eng.strobe.last, loopAt := some s.eng.strobe.last, carrier := true, origin := s.eng.strobe.last
        carrierK := 0, handback := false, clamp := true, phAt := none, relock := .retune, recovery := false, track := .off, steer := 0
        settled := false } ∧
      w = { s.eng with
        free := w.free, kettle := w.kettle, fifo := { s.eng.fifo with frames := [], missRun := 0 }, tempo := w.tempo
        out := { s.eng.out with
          clocks := false, held := true, chans := s.eng.out.chans.map fun x => chanLinesLost (chanAtRT false x) }
        rs := s.eng.rs.map fun r => r.retune f s.eng.strobe.last, rsOld := s.eng.rsOld.map fun r => r.retune f s.eng.strobe.last
        pins := { s.eng.pins with gp := pinsFollow s.caddy { s.eng with out := { s.eng.out with clocks := false } } }
        cond := { s.eng.cond with fenceOn := false } } ∧
      (s.eng.served = false ∨ s.eng.mode = .load → w.tempo = s.eng.tempo ∧ w.free = s.eng.free)

/-- A calibrated channel, `x` of the engine `e`, at the start of the unmute: silent with DLY_FAIL without a line that passed; one whose gD
had fallen with a DLY_FAIL that is over rises again over 5 ms. -/
def atUnmute (e : Engine) (x : Chan) : Chan :=
  if x.lines.any (·.passed) = false then { x with gD := ⟨0, 0, 0, 1⟩, failEp := true }
  else if x.gD.v1 = 0 ∧ x.failEp = false then
    { x with gD := ⟨x.gD.at (e.strobe.n - 1), 1, e.strobe.n + 1, framesMs e.kettle.fam 5⟩ }
  else x

/-- UNMUTE_START: the outputs rise over 2 ms from the first strobe 5 ms after tLOCK, and the relock is complete 2 ms after that strobe (log
68); a calibrated channel (log 41) without a line that passed stays silent with DLY_FAIL. -/
def UnmuteStarts : Prop :=
  ∀ (bad : List Nat) (s : State), s.quiet → s.eng.kettle.relock = .settle → s.eng.kettle.locked = true → s.eng.strobe.started = true →
    s.eng.kettle.carrier = false → s.eng.kettle.tLock + 1966080 ≤ s.eng.strobe.last → s.eng.out.chans.length = 4 →
    bad = (List.range 4).filter (fun i => calibratedChan s.eng i && !(s.eng.chan i).lines.any (·.passed) && !(s.eng.chan i).failEp) →
    ∃ w : Engine, exec .unmuteStart s = .next (s.actedAt w) ∧
      (∀ i < 4, w.chan i = if calibratedChan s.eng i = true then atUnmute s.eng (s.eng.chan i) else s.eng.chan i) ∧
      w = { s.eng.raiseAll (bad.map fun _ => 0x21) with
        kettle := { s.eng.kettle with relock := .unmute (s.eng.strobe.last + 786432) }
        out := { s.eng.out with
          chans := w.out.chans, gK := ⟨s.eng.out.gK.at (s.eng.strobe.n - 1), 1, s.eng.strobe.n + 1, framesIn2ms s.eng.kettle.fam⟩ } }

/-- The two later instants of a relock. -/
def Obligations.RelockGoesOn : Prop := RetuneStarts ∧ UnmuteStarts

/-- The resampler after an event that turns it at strobe `n` with `g`; where the next strobe is due already the event waits for it (R45). -/
def resamplerTurns (x : RsTurn) (g : Rs → Rs) (e : Engine) : Option Rs :=
  e.rs.map fun r => if e.stamp = e.strobe.n then g r else { r with turns := r.turns ++ [x] }

/-- Settled word-clock tracking: the frequency error is below 1 ppm and the phase has stayed within ±1 µs of what it was at the run's start
(log 99) for 1 s (R140); it fixes the ratio of the resampler from the position after the last strobe, and its end gives the loop back. -/
def Obligations.TrackingSettles : Prop :=
  (∀ (d : Time) (s : State), s.running = true → s.calm → policy s.eng = .wclk → s.eng.kettle.track = .steering → s.eng.kettle.settled = false →
    s.eng.kettle.phAt = some d → d + msT 1000 ≤ s.eng.now → (s.eng.kettle.steer - s.eng.kettle.rate).natAbs < 1000000 →
    exec .trackingSettled s = .next { s with eng := { s.eng with
      kettle := { s.eng.kettle with settled := true }
      rs := resamplerTurns .settled
        (fun r => if r.row < 15 ∧ r.placed = true then { r with fixed := some (s.eng.strobe.n, r.psi) } else r) s.eng } }) ∧
    (∀ s : State, s.calm → policy s.eng ≠ .wclk ∨ s.eng.kettle.track ≠ .steering ∨ s.eng.kettle.phAt = none ∨
      1000000 ≤ (s.eng.kettle.steer - s.eng.kettle.rate).natAbs → exec .trackingSettled s = .next s) ∧
    (∀ s : State, s.running = true → s.calm → s.eng.kettle.settled = true →
      exec .trackingSettledEnd s = .next { s with eng := { s.eng with
        kettle := { s.eng.kettle with settled := false }
        rs := resamplerTurns .settledEnd (fun r => { r with fixed := none, acc := 0#32, rho := r.rhoNom }) s.eng } }) ∧
    ∀ s : State, s.calm → s.eng.kettle.settled = false → exec .trackingSettledEnd s = .next s

/-! ## Strobes, ticks and frames -/

/-- FRAME_STROBE in Load mode: the count goes on, FAULT_N follows the fault conditions, and the first strobe after B3 begins load service
with a status frame due. -/
def StrobeInLoadMode : Prop :=
  ∀ (t : Time) (b : Bool) (s : State), s.running = true → s.calm → s.eng.mode = .load → nextStrobe s.eng = some t →
    b = (s.eng.steep.b3 && !s.eng.pins.ready) →
    ∃ u, exec .frameStrobe s = .next u ∧
      u = { s with eng := { s.eng with
        now := max s.eng.now t, strobe := ⟨true, if s.eng.strobe.started = true then s.eng.strobe.n + 1 else 0, t, 0⟩
        load := { s.eng.load with begun := s.eng.load.begun || b }, kettle := u.eng.kettle
        pins := { s.eng.pins with
          ready := s.eng.pins.ready || s.eng.steep.b3, faultLow := s.eng.faults.latched || s.eng.faults.classC.any (conditionHolds s.eng) }
        link := { s.eng.link with loadDue := s.eng.link.loadDue || b }
        out := { s.eng.out with held := s.eng.out.held && !s.eng.kettle.locked } } } ∧
      (s.eng.kettle.carrier = false → (∀ x, s.eng.kettle.relock ≠ .unmute x) → u.eng.kettle = s.eng.kettle)

/-- FRAME_STROBE at strobe `n` in full service: the count goes on, and the strobe releases its frame. A frame that is not complete is a miss
that repeats the samples released last, with DEADLINE_MISS while the fence is on (R21, R41), the fence as the strobe before left it (log
75); the misses in a row count on while the fence is on, also through the repeats (log 65). -/
def StrobesRelease : Prop :=
  ∀ (t : Time) (p n : Nat) (s : State), s.inService → s.eng.mode ≠ .load → nextStrobe s.eng = some t → s.eng.strobe.started = true →
    n = s.eng.strobe.n + 1 → s.eng.steep.p = some p → p ≤ n →
    ∃ u, exec .frameStrobe s = .next u ∧ u.eng.strobe = ⟨true, n, t, 0⟩ ∧
      u.pending = s.pending ∧ u.power = s.power ∧ u.caddy = s.caddy ∧ u.cells = s.cells ∧ u.dnew = s.dnew ∧ u.eng.image = s.eng.image ∧
      (∀ r, s.eng.fifo.frames.find? (fun f => f.n == n && f.done) = some r → u.eng.fifo.out = r.samples ∧ u.eng.fifo.missRun = 0 ∧
        ((∀ x ∈ s.eng.fifo.frames, x.stuck = []) → u.eng.fifo.frames = s.eng.fifo.frames.filter (fun f => !(f.n == n && f.done)))) ∧
      (s.eng.fifo.frames.find? (fun f => f.n == n && f.done) = none → u.eng.fifo.out = s.eng.fifo.out ∧
        ((∀ x ∈ s.eng.fifo.frames, x.stuck = []) → u.eng.fifo.frames = s.eng.fifo.frames) ∧
        u.eng.fifo.missRun = (if s.eng.cond.fenceOn = true then s.eng.fifo.missRun + 1 else 0) ∧
        (s.eng.cond.fenceOn = true → 0x1F ∈ u.eng.faults.pend.map (·.code)))

/-- R42 at strobe `n` in full service: the third DEADLINE_MISS in a row mutes every output; while the mute lasts zero reaches the modulator
and the digital output, and the strobes with a slack of three frames are counted in a row, whatever the fence does (log 54); the mute ends
with the frame that follows the 96th of them. -/
def MissesMute : Prop :=
  ∀ (t : Time) (p n : Nat) (miss ends third full : Bool) (s : State), s.inService → s.eng.mode ≠ .load → nextStrobe s.eng = some t →
    s.eng.strobe.started = true → n = s.eng.strobe.n + 1 → s.eng.steep.p = some p → p ≤ n →
    miss = (s.eng.fifo.frames.find? (fun f => f.n == n && f.done)).isNone →
    ends = (s.eng.fifo.muted && decide (96 ≤ s.eng.fifo.fullRun)) →
    third = (miss && s.eng.cond.fenceOn && decide (2 ≤ s.eng.fifo.missRun)) →
    full = ((List.range 3).all fun k => (s.eng.fifo.frames.find? (fun f => f.n == n + 1 + k && f.done)).isSome) →
    ∃ u, exec .frameStrobe s = .next u ∧ u.eng.fifo.muted = (s.eng.fifo.muted && !ends || third) ∧
      (u.eng.fifo.muted = true →
        (∀ i < 4, f32Rat (u.eng.chan i).x = 0) ∧ (∀ w ∈ u.eng.out.words, w = 0) ∧
        u.eng.fifo.fullRun = if full = true then (if third = true then 0 else s.eng.fifo.fullRun) + 1 else 0)

/-- Before P every strobe releases zero samples without a miss (R939). -/
def StrobesBeforeP : Prop :=
  ∀ (t : Time) (n : Nat) (s : State), s.quiet → s.eng.mode ≠ .load → nextStrobe s.eng = some t →
    n = (if s.eng.strobe.started = true then s.eng.strobe.n + 1 else 0) →
    s.eng.steep.p = none → s.eng.steep.b4 = false ∨ s.eng.steep.b5 = false →
    ∃ u, exec .frameStrobe s = .next u ∧ u.eng.strobe = ⟨true, n, t, 0⟩ ∧ u.eng.fifo.out = List.replicate 4 0#32 ∧ u.eng.fifo.missRun = 0 ∧
      u.eng.steep.p = none ∧ u.eng.steep.f = s.eng.steep.f ∧ u.eng.pins.ready = s.eng.pins.ready ∧
      u.pending = s.pending ∧ u.power = s.power ∧ u.caddy = s.caddy ∧ u.cells = s.cells ∧ u.dnew = s.dnew ∧ u.eng.image = s.eng.image

/-- Strobe `n` writes the thermos words that are due up to `n`, in their order, and T05 after a retained fault, as one unit with its check
word; with nothing due nothing is written (R106, R107, R864). -/
def StrobesWriteTheThermos : Prop :=
  ∀ (t : Time) (n : Nat) (ws : List W16) (s : State), s.inService → s.eng.mode ≠ .load → nextStrobe s.eng = some t →
    s.eng.strobe.started = true → n = s.eng.strobe.n + 1 → s.eng.steep.b4 = true →
    ws = ((s.eng.due.filter fun x => decide (x.1 ≤ n)).map (·.2)).foldl (fun w x => w.set x.1 x.2) s.thermos.words →
    ∃ u, exec .frameStrobe s = .next u ∧ u.eng.due = s.eng.due.filter (fun x => decide (n < x.1)) ∧ u.thermos.hold = s.thermos.hold ∧
      u.eng.faults.dirty = false ∧
      (u.thermos.words = ws ∨ ∃ x, u.eng.faults.last = some x ∧ u.thermos.words = ws.set 5 (BitVec.ofNat 16 x.1)) ∧
      (∀ x, s.eng.faults.dirty = true → u.eng.faults.last = some x → u.thermos.words = ws.set 5 (BitVec.ofNat 16 x.1)) ∧
      ((∃ x ∈ s.eng.due, x.1 ≤ n) → u.thermos.tc = thermosCrc u.thermos.words) ∧
      (u.thermos = s.thermos ∨ u.thermos.tc = thermosCrc u.thermos.words ∧ ((∃ x ∈ s.eng.due, x.1 ≤ n) ∨
        ∃ x, u.eng.faults.last = some x ∧ u.thermos.words = ws.set 5 (BitVec.ofNat 16 x.1)))

/-- What a strobe releases, and what it writes. -/
def Obligations.StrobeReleasesItsFrame : Prop := StrobesRelease ∧ MissesMute ∧ StrobesBeforeP ∧ StrobesWriteTheThermos

/-- Whether a channel modulates after the strobe at which it may start (R174, R649): in Play mode, as a modulator channel of STRAP_A, with a
kettle. -/
def StartsModulating (i : Nat) (s u : State) : Prop :=
  (u.eng.chan i).modulating =
    ((s.eng.chan i).modulating || decide (s.eng.mode = .play ∧ isModulator s.eng.straps.a i = true ∧ s.eng.kettle.down = none))

/-- Strobe P, the first one after B4, B5 and B6: the meadow may begin frame P, OUT0 and OUT1 start, and the chime begins on V240 to V255 for
700 ms where the system section asks for it and no slot is out of service (R174, R178, R453). -/
def StrobeP : Prop :=
  ∀ (t : Time) (n : Nat) (s : State), s.quiet → s.eng.mode ≠ .load → nextStrobe s.eng = some t →
    n = (if s.eng.strobe.started = true then s.eng.strobe.n + 1 else 0) → s.eng.steep.p = none → s.eng.steep.f = none → s.eng.steep.b4 = true →
    s.eng.steep.b5 = true → s.eng.steep.b6 = true → s.eng.steep.b9 = false → s.sound → s.eng.cond.fenceOn = false → s.eng.cond.ends = [] →
    s.eng.out.chans.length = 4 → s.eng.cond.slots.length = 256 →
    ∃ u, exec .frameStrobe s = .next u ∧ u.eng.strobe = ⟨true, n, t, 0⟩ ∧ u.eng.steep.p = some n ∧ u.eng.fifo.next = some n ∧
      u.eng.fifo.out = List.replicate 4 0#32 ∧ StartsModulating 0 s u ∧ StartsModulating 1 s u ∧
      (u.eng.chan 2).modulating = (s.eng.chan 2).modulating ∧ (u.eng.chan 3).modulating = (s.eng.chan 3).modulating ∧
      u.eng.steep.f = none ∧ u.eng.pins.ready = s.eng.pins.ready ∧
      (slotB (sysSlot s.caddy s.eng.image 0x006) = true → 256 ≤ s.eng.cond.limit →
        u.eng.steep.chime = true ∧ u.eng.steep.chimeEnd = t + 275251200 ∧
        (∀ i, 240 ≤ i → i < 256 → ∃ r, u.eng.occ i = some r ∧ r.part = 0 ∧ r.group = [i] ∧ r.state = .held) ∧
        ∀ i < 240, u.eng.occ i = s.eng.occ i) ∧
      (slotB (sysSlot s.caddy s.eng.image 0x006) = false ∨ s.eng.cond.limit < 256 →
        u.eng.steep.chime = s.eng.steep.chime ∧ u.eng.cond.slots = s.eng.cond.slots) ∧
      u.pending = s.pending ∧ u.power = s.power ∧ u.caddy = s.caddy ∧ u.cells = s.cells ∧ u.eng.image = s.eng.image

/-- Strobe F: READY rises, full service begins, nothing is held any longer, the entries of the general pins take their pins with an initial
level, a conflict raises GPIO_CONFLICT, OUT2 and OUT3 start, the counters run with the tempo of the record, the faults kept since t0 have
been offered, and the hand-over stands at frame F + 5 where no relock runs (R63, R65, R70, R171, R188, R193, R535, R865). -/
def StrobeF : Prop :=
  ∀ (t : Time) (n : Nat) (s : State), s.quiet → nextStrobe s.eng = some t → s.ripe n → s.eng.out.chans.length = 4 →
    ∃ u, exec .frameStrobe s = .next u ∧ u.eng.strobe = ⟨true, n, t, 0⟩ ∧ u.eng.served = true ∧ u.eng.pins.ready = true ∧
      u.eng.steep = { s.eng.steep with
        f := some n, b10 := true, held := [], heldRt := none, irHold := [], restore := !s.eng.steep.muted0, xAt := u.eng.steep.xAt
        xFam := s.eng.kettle.fam } ∧
      (s.eng.kettle.relock = .none → u.eng.steep.xAt = some (n + 5)) ∧
      ((∃ g, s.eng.kettle.relock = .mute g) ∨ s.eng.kettle.relock = .retune → u.eng.steep.xAt = none) ∧
      (∀ i < 16, u.eng.gpAt i = if gpTakes s.caddy s.eng i = true then { GpEntry.clear with
        taken := true, fresh := true, level := if gpKind s.caddy s.eng.image i = 2 then slotBits 7 0 (gpSlot s.caddy s.eng.image i 5) else 0 }
        else GpEntry.clear) ∧
      ((∃ i < 16, gpKind s.caddy s.eng.image i ≠ 0 ∧ gpTakes s.caddy s.eng i = false) → 0x08 ∈ u.eng.faults.pend.map (·.code)) ∧
      StartsModulating 2 s u ∧ StartsModulating 3 s u ∧ u.eng.tempo.tempo = s.thermos.word 4 ∧ (u.eng.ctr 0).run = true ∧ u.eng.tempo.running = true ∧
      u.eng.faults.early = [] ∧ u.pending = s.pending ∧ u.power = s.power ∧ u.caddy = s.caddy ∧ u.cells = s.cells ∧ u.eng.image = s.eng.image

/-- What F does to the parts: with nothing held each macro stands at INITIAL of the part's patch and nothing else of the parts changes
(R810); a held control change acts on its part as one stamped F (R188, R191). -/
def HeldMessagesActAtF : Prop :=
  (∀ (t : Time) (n : Nat) (s : State), s.quiet → nextStrobe s.eng = some t → s.ripe n → s.eng.steep.held = [] → s.eng.steep.heldRt = none →
    s.eng.steep.irHold = [] →
    ∃ u, exec .frameStrobe s = .next u ∧ u.eng.parts = s.eng.parts.map fun r => { r with macros := macrosInit s.caddy r.patch (n + 5) }) ∧
  ∀ (t : Time) (n k : Nat) (ch : BitVec 4) (v : BitVec 7) (s : State), s.quiet → nextStrobe s.eng = some t → s.ripe n →
    s.eng.steep.held = [⟨[0xB0#8 ||| ch.setWidth 8, 7#8, v.setWidth 8], k⟩] → s.eng.steep.heldRt = none → s.eng.steep.irHold = [] →
    partOn s.caddy s.eng (partOf ch) = true → s.eng.parts.length = 16 →
    ∃ u, exec .frameStrobe s = .next u ∧ (u.eng.part (partOf ch)).cc = (s.eng.part (partOf ch)).cc.set 7 v.toNat ∧
      ∀ p, 1 ≤ p → p ≤ 16 → p ≠ partOf ch → (u.eng.part p).cc = (s.eng.part p).cc

/-- The rank of a held event among those of one completion time: the event port before the remote control (R46, R188). -/
def lateRank : Late → Nat
  | .message _ => 0
  | .code _ => 1

/-- The held events that F releases: in order of completion, the event port first where two complete together; not the note-ons older than
250 ms, and not the pairs of a note-on with the note-off after it (R188 to R191). -/
def HeldEventsAreOrdered : Prop :=
  (∀ (t : Time) (x : Steep), (heldEvents t x).Pairwise fun a b => a.1 < b.1 ∨ a.1 = b.1 ∧ lateRank a.2 ≤ lateRank b.2) ∧
  (∀ (t : Time) (x : Steep) (k : Nat) (bs : List Byte), (k, Late.message bs) ∈ heldEvents t x ↔
    (⟨bs, k⟩ : Held) ∈ pairHeld [] x.held ∧ ¬ ((⟨bs, k⟩ : Held).isNoteOn = true ∧ 16 * (k : Rat) + 98304000 < t) ∨ x.heldRt = some ⟨bs, k⟩) ∧
  (∀ (t : Time) (x : Steep) (k : Nat) (c : IrCode), (k, Late.code c) ∈ heldEvents t x ↔ (c, k) ∈ x.irHold) ∧
  (∀ l : List Held, (∀ h ∈ l, h.isNoteOff = false) → pairHeld [] l = l) ∧
  (∀ (l : List Held) (h : Held), (∀ x ∈ l, x.isNoteOff = false) → (∀ x ∈ l, x.isNoteOn = true → x.sameNote h = false) →
    pairHeld [] (l ++ [h]) = l ++ [h]) ∧
  ∀ (l m r : List Held) (a b : Held), a.isNoteOn = true → b.isNoteOff = true → a.sameNote b = true → (∀ x ∈ l ++ m, x.isNoteOff = false) →
    (∀ x ∈ m, x.isNoteOn = true → x.sameNote b = false) → pairHeld [] (l ++ a :: m ++ b :: r) = pairHeld [] (l ++ m ++ r)

/-- The strobes of P and F. -/
def Obligations.StrobesOfPAndF : Prop := StrobeP ∧ StrobeF ∧ HeldMessagesActAtF ∧ HeldEventsAreOrdered

/-- COUNTER_TICK before full service: only the tick of the frame and the latest instant go on, and FSTB falls with the second tick; more
than four ticks in a frame, or ticks before strobe 0, change nothing (log 8). -/
def TicksBeforeService : Prop :=
  (∀ (pins : BitVec 16) (s : State), s.running = true → s.calm → s.eng.strobe.started = true → s.eng.strobe.tick < 4 →
    (s.eng.served = false ∨ s.eng.mode = .load) →
    exec (.counterTick pins) s = .next { s with eng := { s.eng with
      now := max s.eng.now (tickAt s.eng s.eng.strobe.tick), strobe := { s.eng.strobe with tick := s.eng.strobe.tick + 1 }
      pins := if s.eng.mode = .bench ∧ 1 ≤ s.eng.strobe.tick then { s.eng.pins with gp := s.eng.pins.gp.set 15 .low } else s.eng.pins } }) ∧
    (∀ (i : Nat) (e : Engine), e.kettle.carrier = false → tickAt e i = e.strobe.last + loopFrame e.kettle * (i : Rat) / 4) ∧
    ∀ (pins : BitVec 16) (s : State), s.calm → (s.eng.strobe.started = false ∨ 4 ≤ s.eng.strobe.tick) →
      exec (.counterTick pins) s = .next s

/-- Strobes and ticks where there is no full service. -/
def Obligations.StrobesOutsideService : Prop := StrobeInLoadMode ∧ TicksBeforeService

/-- FRAME_COMPUTATION_START: the next frame takes one of the four places of the FIFO, the shadow bank of every cell that holds a role
becomes the active one and is copied, a word of wrong parity as +0 (R409, log 28), and the stores of the frame before reach delay memory
(R22, R385, R393, R399). A fenced cell and one without a role compute nothing, and their banks stay (R878, R944). Where a stalled role waits
for its boundary the frame never takes a place (R880). Without a free place, or more than four frames ahead, the command changes nothing,
which is the model's choice (log 8). -/
def FrameComputationStarts : Prop :=
  (∀ (bad : List BadWord) (n : Nat) (s : State), s.quiet → s.eng.fifo.next = some n → s.eng.strobe.started = true → s.eng.mode ≠ .load →
    n ≤ s.eng.strobe.n + 4 → s.eng.fifo.frames.length < 4 → (∀ m ∈ s.eng.health.moves, m.stall = true → m.frame ≤ n) →
    ∃ u r, exec (.frameComputationStart bad) s = .next u ∧ u.eng.fifo.next = some (n + 1) ∧
      u.eng.fifo.frames = s.eng.fifo.frames ++ [r] ∧ r.n = n ∧ r.done = false ∧ r.samples.length = 4 ∧
      (bad = [] → (∀ x ∈ s.eng.fifo.frames, x.stuck = []) → r.stuck = []) ∧
      u.eng.fifo.out = s.eng.fifo.out ∧ u.eng.strobe = s.eng.strobe ∧ u.eng.kettle = s.eng.kettle ∧ u.eng.image = s.eng.image ∧
      u.eng.dmem = commitStores s.dnew s.eng.dmemNext ∧ u.dnew = [] ∧ u.pending = s.pending ∧ u.power = s.power ∧
      u.thermos = s.thermos ∧ u.caddy = s.caddy ∧
      (∀ i, (u.cellAt i).acc = (s.cellAt i).acc ∧ (u.cellAt i).localMem = (s.cellAt i).localMem ∧ (u.cellAt i).addr = (s.cellAt i).addr ∧
        (holdsRole s.eng i = true → (u.cellAt i).active = (s.cellAt i).shadow ∧ (u.cellAt i).badShadow = [] ∧
          (bad = [] → (s.cellAt i).badShadow = [] → (u.cellAt i).shadow = (s.cellAt i).shadow ∧ (u.cellAt i).badActive = [])) ∧
        (holdsRole s.eng i = false → bad = [] → u.cellAt i = s.cellAt i))) ∧
  (∀ (n : Nat) (m : Move) (s : State), s.quiet → s.eng.fifo.next = some n → s.eng.strobe.started = true → s.eng.mode ≠ .load →
    n ≤ s.eng.strobe.n + 4 → s.eng.fifo.frames.length < 4 → m ∈ s.eng.health.moves → m.stall = true → n < m.frame →
    ∃ u, exec (.frameComputationStart []) s = .next u ∧ u.eng.fifo.next = some (n + 1) ∧ u.eng.fifo.frames = s.eng.fifo.frames) ∧
  ∀ (bad : List BadWord) (s : State), s.eng.fifo.next = none ∨ s.eng.strobe.started = false ∨ s.eng.mode = .load ∨
    4 ≤ s.eng.fifo.frames.length ∨ (∃ n, s.eng.fifo.next = some n ∧ s.eng.strobe.n + 4 < n) →
    exec (.frameComputationStart bad) s = .next s

/-- FRAME_COMPUTATION_COMPLETE: the oldest frame under computation for which no cell hangs waits for its strobe, or is discarded where that
has passed (R41); a frame for which a cell hangs does not complete (R880). -/
def FrameComputationCompletes : Prop :=
  (∀ (a b : List FrameRec) (f : FrameRec) (s : State), s.running = true → s.calm → s.eng.fifo.frames = a ++ f :: b →
    (∀ x ∈ a, x.done = true ∨ x.stuck ≠ []) → f.done = false → f.stuck = [] →
    exec .frameComputationComplete s = .next { s with eng := { s.eng with fifo := { s.eng.fifo with
      frames := a ++ (if f.n ≤ s.eng.strobe.n then b else { f with done := true } :: b) } } }) ∧
  ∀ s : State, s.calm → (∀ x ∈ s.eng.fifo.frames, x.done = true ∨ x.stuck ≠ []) → exec .frameComputationComplete s = .next s

/-- A frame computation starts and completes. -/
def Obligations.FramesAreComputed : Prop := FrameComputationStarts ∧ FrameComputationCompletes

/-! ## What a frame contains (11, 14, 15.8) -/

/-- A frame before F + 5 carries passthrough: the program words through the safe EQ at Gp, rising over 20 ms from frame P on, 0 while the
record in force is muted; OUT2, OUT3 and the channels that STRAP_A does not assign carry 0 (R174 to R176, R606, R610). With nothing else in
the meadow no voice sounds. -/
def PassthroughFrames : Prop :=
  ∀ (n p v : Nat) (ins : List W32) (g : W32) (l r : W32 × List Sec) (s : State), s.quiet → s.eng.fifo.next = some n → s.eng.strobe.started = true →
    s.eng.mode ≠ .load → n ≤ s.eng.strobe.n + 4 → s.eng.fifo.frames.length < 4 → (∀ f ∈ s.eng.fifo.frames, f.stuck = []) → s.eng.health.moves = [] →
    s.eng.steep.p = some p → p ≤ n → (∀ x, s.eng.steep.f = some x → n < x + 5) → (∀ x, s.eng.steep.xAt = some x → n ≤ x) →
     s.eng.steep.chime = false →
    s.eng.voices = List.replicate 256 SlotCell.zero → s.eng.cond.queues = List.replicate 256 [] →
    ins = ((s.eng.gin.words.find? fun x => x.1 == n).map (·.2)).getD (List.replicate 4 0#32) → v = framesMs s.eng.kettle.fam 20 →
    g = (let x := if s.eng.steep.muted0 = true then 0#32 else dbLinear (min (-20) (volDb s.eng.steep.index0))
      if n - p < v then ofRat (f32Rat x * ((n - p : Nat) : Rat) / (v : Rat)) else x) →
    l = cascade (safeEq (fsInt s.eng.kettle.fam)) (nth [] s.eng.bus.pass 0) (fMul (line [.val (nth 0#32 ins 0), .val 0#32]) g) →
    r = cascade (safeEq (fsInt s.eng.kettle.fam)) (nth [] s.eng.bus.pass 1) (fMul (line [.val (nth 0#32 ins 1), .val 0#32]) g) →
    ∃ u rec, exec (.frameComputationStart []) s = .next u ∧ u.eng.fifo.frames = s.eng.fifo.frames ++ [rec] ∧ rec.n = n ∧ rec.sounding = 0 ∧
      rec.samples = (List.range 4).map (fun i => if channelUsed s.eng.straps.a i = true then nth 0#32 [l.1, r.1, 0#32, 0#32] i else 0#32) ∧
      u.eng.bus.pass = [l.2, r.2]

/-- Every frame: a channel that STRAP_A does not assign carries 0, and each queue keeps the entries of later frames only (R28, R392, R610). -/
def FramesTakeTheirEntries : Prop :=
  ∀ (bad : List BadWord) (n : Nat) (s : State), s.quiet → s.eng.fifo.next = some n → s.eng.strobe.started = true → s.eng.mode ≠ .load →
    n ≤ s.eng.strobe.n + 4 → s.eng.fifo.frames.length < 4 → (∀ m ∈ s.eng.health.moves, m.stall = true → m.frame ≤ n) →
    s.eng.voices.length = 256 → s.eng.cond.queues.length = 256 →
    ∃ u rec, exec (.frameComputationStart bad) s = .next u ∧ u.eng.fifo.frames = s.eng.fifo.frames ++ [rec] ∧
      (∀ i < 4, channelUsed s.eng.straps.a i = false → nth 0#32 rec.samples i = 0#32) ∧
      (∀ i < 256, u.eng.queue i = (s.eng.queue i).filter fun en => decide (n < en.frame)) ∧
      u.eng.cond = { s.eng.cond with queues := u.eng.cond.queues, ends := u.eng.cond.ends } ∧ u.eng.voices.length = 256

/-- The voices of one frame: a NOTE_ON starts its voice in a slot that sounds nothing; a voice keeps what it started with and counts its
frames, and one that ends sends 0; the position of its word lies in -1 to 1; a steal ends the voice of its number and leaves a tail of its
last words, which falls to 0 over 32 frames (R416, R435, R492, R503). -/
def VoicesPlay : Prop :=
  (∀ (env : Nat → VoiceEnv) (f id part note vel : Nat) (patch gl : Option Nat) (s : SlotCell) (o : List Entry × SlotCell × Option Nat),
    s.voice = none → o = slotFrame env f [⟨f, id, .noteOn part note vel patch 0 1 gl⟩] s →
    o.1 = [] ∧ o.2.1.part = part ∧ (o.2.2 = none ∨ o.2.2 = some id ∧ o.2.1.voice = none ∧ o.2.1.word = 0#32) ∧
    (o.2.2 = none → ∃ v, o.2.1.voice = some v ∧ v.id = id ∧ v.part = part ∧ v.note = note ∧ v.vel = vel ∧ v.patch = patch ∧ v.frame = 1)) ∧
  (∀ (x : VoiceEnv) (noise : List W32) (v : Voice),
    ((voiceFrame x noise v).1 = none → (voiceFrame x noise v).2.2.1 = 0#32) ∧
    (∀ w, (voiceFrame x noise v).1 = some w → w.id = v.id ∧ w.part = v.part ∧ w.patch = v.patch ∧ w.note = v.note ∧ w.vel = v.vel ∧
      w.press = v.press ∧ w.frame = v.frame + 1) ∧
    -1 ≤ f32Rat (voiceFrame x noise v).2.2.2 ∧ f32Rat (voiceFrame x noise v).2.2.2 ≤ 1) ∧
  (∀ (env : Nat → VoiceEnv) (f : Nat) (v : Voice) (s c : SlotCell), s.voice = some v → v.frame ≠ 0 →
    c = (slotFrame env f [⟨f, v.id, .steal⟩] s).2.1 →
    c.voice = none ∧ c.word = 0#32 ∧ c.tail = some ⟨fAdd s.word s.tailWord, 1, s.pan, v.part⟩ ∧
    c.tailWord = fMul (fAdd s.word s.tailWord) (q32 31 32)) ∧
  ∀ (a : Tail), a.k ≤ 31 →
    tailFrame (some a) = (if a.k = 31 then none else some { a with k := a.k + 1 }, fMul a.s (q32 ((31 : Int) - a.k) 32)) ∧
    (a.k = 31 → f32Rat (tailFrame (some a)).2 = 0)

/-- The mix: a part's bus takes the words of its voices alone, in their order; the crossfade stands at passthrough before its first frame
and at the full chain after its last (R193, R390, R611). -/
def BusesAndCrossfade : Prop :=
  (∀ (ws : List (Nat × W32 × W32)) (p : Nat), partBus ws p = partBus (ws.filter fun x => x.1 == p) p ∧
    partBus ws p = (accStf ((ws.filter fun x => x.1 == p).foldl (fun a x => accMac a (panL x.2.1) x.2.2) ⟨0, 0⟩),
      accStf ((ws.filter fun x => x.1 == p).foldl (fun a x => accMac a (panR x.2.1) x.2.2) ⟨0, 0⟩))) ∧
  ∀ (f x n : Nat) (a b : W32), blend f none n a b = a ∧ (f < x → blend f (some x) n a b = a) ∧ (x + n ≤ f → blend f (some x) n a b = b) ∧
    (x ≤ f → f < x + n → blend f (some x) n a b = accStf (accMac (accMac ⟨0, 0⟩ (q32 (n - (f - x) : Nat) n) a) (q32 (f - x : Nat) n) b))

/-- The gains of an output channel: with gP at 0 the sample is 0 (R631); so it is with the volume or the mute at 0 where the channel has
neither alignment nor look-ahead (R621, R623). -/
def ChainsAreSilenced : Prop :=
  ∀ (x : ChainEnv) (n : Nat) (old m : DelayMem) (k : Chain),
    (f32Rat x.gP = 0 → f32Rat (chainFrame x n old k m).1 = 0) ∧
    (f32Rat x.gM = 0 ∨ f32Rat x.vol = 0 → slotU 0 255 (sysSlot x.c x.im (chainRecord x.c x.im x.prof n + 0x62)) = 0 →
      slotU 0 3 (sysSlot x.c x.im (chainRecord x.c x.im x.prof n + 0x65)) = 0 → f32Rat (chainFrame x n old k m).1 = 0)

/-- The ramps of the mix: a slide of `n` frames goes from 1 to 0, or from 0 to 1, by 1 / n a frame from its first frame on and stays there;
a volume ramp moves in a straight line in dB and reaches its goal with its last frame (R622, R623). -/
def RampsMove : Prop :=
  (∀ (f0 n k : Nat), 0 < n → (k < n → Slide.at ⟨1, 0, f0, n⟩ (f0 + k) = 1 - ((k + 1 : Nat) : Rat) / n ∧
      Slide.at ⟨0, 1, f0, n⟩ (f0 + k) = ((k + 1 : Nat) : Rat) / n) ∧
    (n ≤ k + 1 → Slide.at ⟨1, 0, f0, n⟩ (f0 + k) = 0 ∧ Slide.at ⟨0, 1, f0, n⟩ (f0 + k) = 1)) ∧
  (∀ (a b : Rat) (f f0 n : Nat), f < f0 → Slide.at ⟨a, b, f0, n⟩ f = a ∧ Ramp.at ⟨a, b, f0, n⟩ f = a) ∧
  ∀ (a b : Rat) (f0 n k : Nat), 0 < n →
    (k < n → Ramp.at ⟨a, b, f0, n⟩ (f0 + k) = a + (b - a) * ((k + 1 : Nat) : Rat) / n) ∧ (n ≤ k + 1 → Ramp.at ⟨a, b, f0, n⟩ (f0 + k) = b)

/-- The unsigned number of a list of bits, the most significant first. -/
def msbFirst (l : List Bool) : Nat := l.foldl (fun a b => 2 * a + b.toNat) 0

/-- The words and the bits of the digital output (R670 to R674, Table 15-6): a word is the sample times gK, rounded to the sample bits of
the format and kept inside its range; a slot carries it in two's complement, MSB first, then zero bits; a set is the slots without gaps, a
slot without a channel 0. BCK_OUT falls at the strobe, and WS_OUT changes at falling edges alone. -/
def DigitalBits : Prop :=
  (∀ (f : DigFmt) (s g : W32) (k : Nat), k = (if f = .tdm8 then 15 else 23) →
    f.word s g = max (-(2 ^ k - 1)) (min (2 ^ k - 1) (f32Rat (fMul s g) * 2 ^ k + 1 / 2).floor)) ∧
  (∀ (f : DigFmt) (w : Int) (m k : Nat), m = (if f = .tdm8 then 16 else 24) → k = (if f = .tdm8 then 16 else 32) → (f.slotBits w).length = k ∧
    ((msbFirst ((f.slotBits w).take m) : Nat) : Int) = w % 2 ^ m ∧ ∀ j, m ≤ j → j < k → nth true (f.slotBits w) j = false) ∧
  (∀ (f : DigFmt) (a l j : Nat) (ws : List Int) (k b : Nat), k = (if f = .tdm8 then 16 else 32) → b = (if f = .i2s ∨ f = .lj then 64 else 128) →
    (lineSet f a l ws).length = b ∧ ((j + 1) * k ≤ b → ((lineSet f a l ws).drop (j * k)).take k =
      f.slotBits (match (lineSlots a l)[j]? with | some c => nth 0 ws c | none => 0))) ∧
  (∀ d, d = 125 ∨ d = 250 → bckLevel d 0 = false ∧ bckLevel d (d - 1) = true ∧
    ((List.range d).filter fun c => !bckLevel d c).length = (if d = 125 then 63 else 125)) ∧
  ∀ (f : DigFmt) (c d : Nat), 0 < d → wsLevel f (c / d) ≠ wsLevel f ((c + 1) / d) → (c + 1) % d = 0

/-- At strobe `n` in Play mode the frame released gives the words of the digital output and their sets; without running clocks, or on a
channel that is no digital one, the word is 0 (R62, R633, R674). -/
def DigitalWordsAtTheStrobe : Prop :=
  ∀ (t : Time) (p n : Nat) (r : FrameRec) (f : DigFmt) (s : State), s.inService → s.eng.mode = .play → nextStrobe s.eng = some t →
    s.eng.strobe.started = true → n = s.eng.strobe.n + 1 → s.eng.steep.p = some p → p ≤ n → s.sound → s.eng.fifo.muted = false →
    s.eng.health.lost = false → s.eng.fifo.frames.find? (fun f => f.n == n && f.done) = some r → digFmt s.eng.straps.a = some f →
    ∃ u, exec .frameStrobe s = .next u ∧ u.eng.out.words.length = 4 ∧
      (∀ i < 4, nth 0 u.eng.out.words i = if isDigital s.eng.straps.a i = true ∧ s.eng.out.clocks = true then
        f.word (nth 0#32 r.samples i) (ofRat (s.eng.out.gK.at n)) else 0) ∧
      u.eng.out.sets = [lineSet f s.eng.straps.a 0 u.eng.out.words, lineSet f s.eng.straps.a 1 u.eng.out.words] ∧
      u.eng.out.lastBits = s.eng.out.sets.map (fun l => l.getLastD false)

/-- What a computed frame contains: its samples, its voices, the mix and the gains, and the digital output. -/
def Obligations.ComputedFrames : Prop :=
  PassthroughFrames ∧ FramesTakeTheirEntries ∧ VoicesPlay ∧ BusesAndCrossfade ∧ ChainsAreSilenced ∧ RampsMove ∧ DigitalBits ∧ DigitalWordsAtTheStrobe

/-! ## Bring-up -/

/-- STRAP_BURST: the level of a strap is the window of the median of its five codes; reserved levels and codes in different windows raise
their faults; a fixed rate mode gives the bit time (R164, R217, R221, Tables 6-4 and 6-5). Each of the twenty conversions has the VREFC of
its own instant (R214, R921). -/
def Obligations.StrapBurstReadsTheStraps : Prop :=
  (∀ code ≤ 4095, strapLevel code = (strapTops.filter fun t => decide (t < code)).length) ∧
    ∀ (a b c d : StrapVolts) (r : StrapRefs) (e : Engine) (s : State), s.running = true → s.calm → s.eng.served = false →
      s.eng.kettle.crystal = true → s.eng.steep.b1 = false →
      e = ({ s.eng with now := max s.eng.now (s.eng.kettle.crystalAt + 3840) } : Engine).raiseAll
        (only (12 ≤ (strapRead a r.a).1 && (strapRead a r.a).1 ≤ 14) 0x06 ++ only (8 ≤ (strapRead b r.b).1 && (strapRead b r.b).1 ≤ 14) 0x06 ++
          only (strapRead a r.a).2 0x07 ++ only (strapRead b r.b).2 0x07 ++ only (strapRead c r.c).2 0x07 ++
          only (strapRead d r.d).2 0x07) →
      exec (.strapBurst a b c d r) s = .next { s with eng := gpFixedStep s.caddy { e with
        straps := ⟨(strapRead a r.a).1, (strapRead b r.b).1, (strapRead c r.c).1, (strapRead d r.d).1⟩
        steep := { s.eng.steep with b1 := true }
        input := { s.eng.input with runFrom := (s.eng.kettle.crystalAt + 3840).ceil.toNat }
        link := { s.eng.link with tr :=
          if 4 ≤ (strapRead b r.b).1 then s.eng.link.tr else some (12582912 / 1000) } } }

/-- DIRECTORY_CHECK: the directory, the system section and the calibration in force, the part controllers of the part table, and the
faults of what is missing. -/
def DirectoryCheckBuildsTheImage : Prop :=
  ∀ s : State, s.running = true → s.calm → s.eng.served = false → s.eng.steep.b3 = false →
    ∃ u, exec .directoryCheck s = .next u ∧
      u.eng.image.dir = directoryInForce s.caddy ∧ u.eng.image.sys = (sectionOfId s.caddy (directoryInForce s.caddy) 0x0200).map (·.base) ∧
      u.eng.image.calCopy = (calRead s.caddy).map (·.1) ∧ u.eng.image.cal = ((calRead s.caddy).map (·.2)).getD calNominal ∧
      u.eng.image.banks = List.replicate 4 none ∧ u.eng.image.waves = List.replicate 16 none ∧
      (∀ p < 16, (nth PartRec.zero u.eng.parts p).cc[7]? = some (slotU 0 127 (sysSlot s.caddy u.eng.image (0x103 + 0x20 * p))) ∧
        (nth PartRec.zero u.eng.parts p).cc[10]? = some (slotU 0 127 (sysSlot s.caddy u.eng.image (0x104 + 0x20 * p)))) ∧
      u.eng.live = u.eng.parts ∧
      u = { s with eng := { s.eng.later.raiseAll
          (only (u.eng.image.dir = none) 0x10 ++ only (u.eng.image.dir ≠ none ∧ u.eng.image.sys = none) 0x11 ++
            only (u.eng.image.calCopy = none) 0x14) with
        image := u.eng.image, parts := u.eng.parts, live := u.eng.parts, steep := { s.eng.steep with b3 := true } } }

/-- CONTENT_SCAN: every patch bank and wave section of the image that is valid, and one CADDY_SECTION for each entry that is not. -/
def ContentScanReadsTheSections : Prop :=
  ∀ s : State, s.running = true → s.calm → s.eng.served = false → s.eng.steep.b3 = true → s.eng.steep.b8 = false → s.eng.mode ≠ .load →
    exec .contentScan s = .next { s with eng := { s.eng.later.raiseAll
        (((scanEntries s.eng.image).filter fun x => (sectionOf s.caddy x).isNone).map fun _ => 0x11) with
      image := { s.eng.image with
        banks := (List.range 4).map fun i => sectionOfId s.caddy s.eng.image.dir i
        waves := (List.range 16).map fun i => sectionOfId s.caddy s.eng.image.dir (0x0100 + i) }
      steep := { s.eng.steep with b8 := true } } }

/-- What steep takes from the caddy. -/
def Obligations.ImageIsRead : Prop := DirectoryCheckBuildsTheImage ∧ ContentScanReadsTheSections

/-- THERMOS_STEP: the record is used where it is valid, else the defaults with THERMOS_LOST; T03 and the profile follow the profile rule
from T03 of the record in force and the level of STRAP_D, T05 takes the retained code of this bring-up, the hold latch is cleared (R111 to
R115, R168). -/
def ThermosStepTakesTheRecord : Prop :=
  ∀ (ws : List W16) (w3 : Nat) (e : Engine) (s : State), s.running = true → s.calm → s.eng.served = false → s.eng.mode ≠ .load →
    s.eng.steep.b1 = true → s.eng.steep.b3 = true → s.eng.steep.b4 = false → s.thermos.words.length = 64 →
    ws = (if s.thermos.recordOk = true then s.thermos.words else thermosDefaults s.caddy s.eng.image s.eng.straps.d) →
    w3 = (nth 0#16 ws 3).toNat → e = s.eng.later.raiseIf (!s.thermos.recordOk) 0x15 →
    ∃ u, exec .thermosStep s = .next u ∧ u.thermos.hold = false ∧ u.thermos.words.length = 64 ∧ u.thermos.tc = thermosCrc u.thermos.words ∧
      (∀ i, i ≠ 3 → i ≠ 5 → nth 0#16 u.thermos.words i = nth 0#16 ws i) ∧
      nth 0#16 u.thermos.words 3 = BitVec.ofNat 16 (profileWord w3 s.eng.straps.d).1 ∧ u.eng.mix.profile = (profileWord w3 s.eng.straps.d).2 ∧
      nth 0#16 u.thermos.words 5 = (e.faults.last.map fun x => BitVec.ofNat 16 x.1).getD (nth 0#16 ws 5) ∧
      u.eng.mix.index = u.thermos.word 1 % 256 ∧ u.eng.mix.muted = decide (32768 ≤ u.thermos.word 1) ∧ u.eng.mix.source = u.thermos.word 2 ∧
      u.eng.mix.vol = ⟨volDb u.eng.mix.index, volDb u.eng.mix.index, 0, 1⟩ ∧ u.eng.mix.gM = Slide.still (if u.eng.mix.muted = true then 0 else 1) ∧
      u.eng.mix.gsP = Slide.still (if u.eng.mix.source = 2 then 0 else 1) ∧ u.eng.mix.gsV = Slide.still (if u.eng.mix.source = 1 then 0 else 1) ∧
      u = { s with thermos := u.thermos, eng := { e with
        faults := { e.faults with dirty := false }, prof := ⟨u.eng.mix.profile, Slide.still 1, none⟩
        steep := { s.eng.steep with b4 := true, index0 := u.eng.mix.index, muted0 := u.eng.mix.muted }
        mix := { MixRec.zero with
          index := u.eng.mix.index, muted := u.eng.mix.muted, source := u.eng.mix.source, profile := u.eng.mix.profile
          vol := u.eng.mix.vol, gM := u.eng.mix.gM, gsP := u.eng.mix.gsP, gsV := u.eng.mix.gsV }
        mixLive := u.eng.mix } }

/-- R114: T03 keeps the profile while its marker holds the STRAP_D level of the record; else it takes the level of the strap. -/
def ProfileFollowsTheStrap : Prop :=
  ∀ (w d : Nat), w < 65536 → d < 16 →
    (32768 ≤ w → w / 256 % 16 = d → profileWord w d = (w, w % 16)) ∧
      (w < 32768 ∨ w / 256 % 16 ≠ d → (profileWord w d).2 = d ∧ (profileWord w d).1 % 16 = d ∧ (profileWord w d).1 / 256 % 16 = d ∧
        (profileWord w d).1 < 32768)

/-- What steep takes from the thermos. -/
def Obligations.RecordIsTaken : Prop := ThermosStepTakesTheRecord ∧ ProfileFollowsTheStrap

/-- MEADOW_SELF_TEST: the fenced cells, L of Table 10-2, the roles over the working cells, and the faults. -/
def Obligations.SelfTestPlacesTheRoles : Prop :=
  ∀ (rom dmem : Bool) (failed : List (Fin 192)) (f : Nat) (s : State), s.running = true → s.calm → s.eng.served = false → s.eng.mode ≠ .load →
    s.eng.steep.b5 = false → s.eng.steep.halted = false → f = ((List.range 192).filter fun i => (failed.map (·.val)).contains i).length →
    ∃ u, exec (.meadowSelfTest rom dmem failed) s = .next u ∧
      u.eng.steep = { s.eng.steep with b5 := rom && dmem, halted := !(rom && dmem) } ∧
      u.eng.cond = { s.eng.cond with limit := if f ≤ 12 then 256 else if f ≤ 140 then 280 - 2 * f else 0 } ∧
      u.eng.health.f = f ∧ u.eng.health.lost = decide (144 < f) ∧ u.eng.health.cells.length = 192 ∧
      (∀ i < 192, (failed.map (·.val)).contains i = true → (u.eng.cellAt i).role = .fenced ∧ (u.eng.cellAt i).fences = 1) ∧
      (∀ i < 192, (failed.map (·.val)).contains i = false → (u.eng.cellAt i).role ≠ .fenced ∧ (u.eng.cellAt i).fences = 0 ∧ (u.eng.cellAt i).passed = 1) ∧
      u = { s with eng := { s.eng.later.raiseAll
          (only (!rom) 0x16 ++ only (!dmem) 0x17 ++ List.replicate f 0x18 ++ only (13 ≤ f) 0x19 ++ only (144 < f) 0x1D) with
        steep := u.eng.steep, cond := u.eng.cond
        health := { u.eng.health with
          moves := s.eng.health.moves, parity := s.eng.health.parity, rot := s.eng.health.rot, news := s.eng.health.news } } }

/-- R651, R652: a delay line passes where the codes of taps 1 to 31 rise strictly, the measured delay lies within one element of the
reference, and every register reads back with the parity that was written; one flipped bit fails it. -/
def LinesPass : Prop :=
  (∀ c : LineCal, c.codes.length = 32 → c.flips = [] →
    ((calLine c).passed = true ↔ (∀ i, 1 ≤ i → i < 31 → (nth 0#6 c.codes i).toNat < (nth 0#6 c.codes (i + 1)).toNat) ∧ -1 ≤ c.dev ∧ c.dev ≤ 1) ∧
    ∀ i < 32, tapCode (nth 0#7 (calLine c).regs i) = (nth 0#6 c.codes i).toNat) ∧
    ∀ (c : LineCal) (x : Fin 32 × Fin 7), c.codes.length = 32 → c.flips = [x] → (calLine c).passed = false

/-- DELAY_LINE_CALIBRATION: B6 calibrates OUT0 and OUT1, B7 OUT2 and OUT3; a modulator channel whose lines both fail stays silent with
DLY_FAIL, one whose comparator offset is not found inside its range runs open-loop with CMP_FAIL (Table 5-5). Table 15-3 speaks of cycles;
that a line which fails at B6 or B7 leaves the channel to the other one, and two that fail silence it, is the model's reading (log 41). -/
def B6AndB7Calibrate : Prop :=
  ∀ (a b : ChannelCal) (s : State), s.quiet → s.clocked → s.eng.strobe.started = true → s.eng.steep.b3 = true →
    s.eng.kettle.locked = true → s.eng.mode ≠ .load → s.eng.steep.b7 = false → s.eng.out.chans.length = 4 →
    ∃ u, exec (.delayLineCalibration a b) s = .next u ∧
      u.eng.steep = { s.eng.steep with
        b6 := true
        b7 := s.eng.steep.b6 || !isModulator s.eng.straps.a 2 && !isModulator s.eng.straps.a 3 } ∧
      (∀ i < 4, ∀ cal la lb, cal = (if i % 2 = 0 then a else b) → la = calLine cal.lineA → lb = calLine cal.lineB →
        ((2 ≤ i ↔ s.eng.steep.b6 = true) ∧ isModulator s.eng.straps.a i = true →
          (u.eng.chan i).lines = [la, lb] ∧ (u.eng.chan i).active = (if la.passed = true ∨ lb.passed = false then 0 else 1) ∧
          (u.eng.chan i).coarse = (!la.passed && !lb.passed) ∧ (u.eng.chan i).failEp = (!la.passed && !lb.passed) ∧
          (la.passed = false → lb.passed = false → 0x21 ∈ u.eng.faults.pend.map (·.code) ∧ (u.eng.chan i).gD.v1 = 0) ∧
          (-25000 < cal.offset → cal.offset < 25000 → (u.eng.chan i).offset = cal.offset ∧
            (u.eng.chan i).trimDone = some s.eng.strobe.n ∧ (u.eng.chan i).opened = (s.eng.chan i).opened) ∧
          (cal.offset ≤ -25000 ∨ 25000 ≤ cal.offset → (u.eng.chan i).opened = true ∧ (u.eng.chan i).offset = (s.eng.chan i).offset ∧
            0x20 ∈ u.eng.faults.pend.map (·.code))) ∧
        (¬ ((2 ≤ i ↔ s.eng.steep.b6 = true) ∧ isModulator s.eng.straps.a i = true) → u.eng.chan i = s.eng.chan i)) ∧
      u = { s with eng := { s.eng with
        evq := [], steep := u.eng.steep, faults := u.eng.faults, pins := u.eng.pins, out := { s.eng.out with chans := u.eng.out.chans } } }

/-- What calibration makes of a delay line and of the channels. -/
def Obligations.DelayLinesAreCalibrated : Prop := LinesPass ∧ B6AndB7Calibrate

/-- PART_PREPARATION: each part takes the bank and program of the record, the patch they resolve to and its bend range, and the effects take
the wet levels and the duck enables of the system section (R163, R285, R287, R791, R824); nothing else changes. -/
def PartsArePrepared : Prop :=
  ∀ (wet : List W32) (a b : Bool) (s : State), s.running = true → s.calm → s.eng.steep.b4 = true → s.eng.steep.b5 = true →
    s.eng.steep.b8 = true → s.eng.steep.b9 = false →
    wet = [slotF 0#32 one32 (sysSlot s.caddy s.eng.image 0x583), slotF 0#32 one32 (sysSlot s.caddy s.eng.image 0x58C),
      slotF 0#32 one32 (sysSlot s.caddy s.eng.image 0x593)] →
    a = slotB (sysSlot s.caddy s.eng.image 0x598) → b = slotB (sysSlot s.caddy s.eng.image 0x5A0) →
    ∃ u, exec .partPreparation s = .next u ∧ u.eng.parts.length = 16 ∧
      (∀ i < 16, ∀ r bank prog patch, r = nth PartRec.zero s.eng.parts i → bank = s.thermos.word (0x10 + i) / 128 % 4 →
        prog = s.thermos.word (0x10 + i) % 128 → patch = resolvePatch s.eng.image bank prog →
        nth PartRec.zero u.eng.parts i = withBend s.caddy patch { r with bank := bank, patchNo := prog, patch := patch }) ∧
      u = { s with eng := { s.eng with
        steep := { s.eng.steep with b9 := true }, parts := u.eng.parts, live := u.eng.parts
        mix := { s.eng.mix with wet := wet, duckA := a, duckB := b }, mixLive := { s.eng.mixLive with wet := wet, duckA := a, duckB := b } } }

/-- The bend range of a patch, and its two bytes (R287). -/
def BendRangeOfThePatch : Prop :=
  ∀ (c : Memory) (patch : Option Nat) (r : PartRec) (x : Rat), x = f32Rat (slotF 0#32 (q32 24) (patchSlot c patch 0x00C)) →
    withBend c patch r = { r with
      bendRange := x, bendMsb := (100 * x + 1 / 2).floor.toNat / 100, bendLsb := (100 * x + 1 / 2).floor.toNat % 100 } ∧ 0 ≤ x ∧ x ≤ 24

/-- STEEP_LATE is raised once, 250 ms after t0 in Play or Bench mode before F; the chime leaves its slots when its 700 ms are over, whatever
the family has been meanwhile (R15, R178). In any other state the two rows change nothing (log 8). -/
def SteepLateAndChimeEnd : Prop :=
  (∀ (t : Nat) (s : State), s.running = true → s.calm → s.eng.mode ≠ .load → s.eng.served = false → s.eng.steep.late = false →
    98304000 ≤ t → exec (.steepLate t) s = .next (s.actedAt { (s.eng.at t).raise 0x04 with steep := { s.eng.steep with late := true } })) ∧
    (∀ (t : Nat) (s : State), s.calm → s.eng.mode = .load ∨ s.eng.served = true ∨ s.eng.steep.late = true ∨ t < 98304000 →
      exec (.steepLate t) s = .next (if s.running = true then s.actedAt s.eng else s)) ∧
    (∀ s : State, s.running = true → s.calm → s.eng.steep.chime = true → s.eng.steep.chimeEnd ≤ s.eng.now ∨
        (∃ t, nextStrobe s.eng = some t ∧ s.eng.steep.chimeEnd < t) →
      ∃ u, exec .chimeEnd s = .next u ∧ (∀ i r, u.eng.occ i = some r ↔ s.eng.occ i = some r ∧ r.part ≠ 0) ∧
        (∀ i, (nth Slot.empty u.eng.cond.slots i).freeFrom = (nth Slot.empty s.eng.cond.slots i).freeFrom) ∧
        u = { s with eng := { s.eng with
          now := max s.eng.now s.eng.steep.chimeEnd, steep := { s.eng.steep with chime := false }
          cond := { s.eng.cond with slots := u.eng.cond.slots } } }) ∧
    ∀ s : State, s.calm → s.eng.steep.chime = false ∨ s.eng.now < s.eng.steep.chimeEnd ∧
        (∀ t, nextStrobe s.eng = some t → t ≤ s.eng.steep.chimeEnd) → exec .chimeEnd s = .next s

/-- The parts before full service, the late fault and the end of the chime. -/
def Obligations.SteepEnds : Prop := PartsArePrepared ∧ BendRangeOfThePatch ∧ SteepLateAndChimeEnd

/-- CONVERSION_COMPLETE: the conversion of the slot that ends at the last strobe enters its channel; one flagged, or one whose predecessor
was flagged, is not entered (R214, R229 to R236). -/
def Obligations.ConversionEntersItsChannel : Prop :=
  ∀ (vin : Int) (vref i : Nat) (s : State), s.quiet → s.eng.mode ≠ .load → s.eng.strobe.started = true →
    s.eng.dials.done ≠ some s.eng.strobe.n → slotAt s.eng.strobe.n = some i → s.eng.dials.chans.length = 16 → 0 < vref →
    ∃ w : Engine, exec (.conversionComplete vin vref) s = .next (s.actedAt w) ∧ w.dials.done = some s.eng.strobe.n ∧
      (w.dials.chan i).ovr = (decide (i < 13) && convOvr vin vref) ∧ (w.dials.chan i).unr = (decide (i < 13) && convUnr vin) ∧
      (w.dials.chan i).codes =
        (if (w.dials.chan i).ovr = true ∨ (w.dials.chan i).unr = true ∨
            0 < i ∧ ((s.eng.dials.chan (i - 1)).flagged = true ∨ (s.eng.dials.chan (i - 1)).prevFlagged = true) then (s.eng.dials.chan i).codes
          else ((max 0 (min 4095 ((4096 * vin).fdiv vref))).toNat :: (s.eng.dials.chan i).codes).take 5) ∧
      (∀ j, j ≠ i → w.dials.chan j = s.eng.dials.chan j) ∧
      (∀ k, Ev.fault k ∈ w.evq → s.eng.served = true ∧ (k = 0x36 ∨ k = 0x37)) ∧
      w = { s.eng with
        evq := w.evq, dials := w.dials, tjChg := w.tjChg, faults := w.faults, pins := w.pins, out := { s.eng.out with chans := w.out.chans } }

/-! ## The event port -/

/-- The link and the fault once `n` sync candidates have failed: SYNC_FAIL counts each, LINK_SYNC comes with the first since the last
accepted one (R271). -/
def candidatesFail (n : Nat) (l : List Nat) (e : Engine) : Engine :=
  { e.raiseIf (decide (0 < n) && !e.link.syncRaised) 0x32 with
    link := { e.link with
      cand := l, syncRaised := e.link.syncRaised || decide (0 < n)
      syncFail := if 0 < n then min 0xFFFF (e.link.syncFail + n) else e.link.syncFail } }

/-- The receiver: armed once RXD has been high for ten bit times since the crystal is valid and B1 is over, in sync state for an autobaud
rate; an accepted candidate gives the bit time at its stop sample; a candidate that can no longer meet Table 7-2 is rejected, and the next
falling edge opens the next (R180, R267 to R271). Both edges of a pulse shorter than 15 ns are ignored (R259). -/
def ReceiverFindsTheBitTime : Prop :=
  (∀ (t : Nat) (s : State), s.running = true → s.calm → s.eng.kettle.crystal = true → s.eng.steep.b1 = true → s.eng.link.armed = false →
    s.eng.kettle.crystalAt + usT (if autobaud s.eng.straps = true then 1074 else 320) ≤ (t : Rat) →
    exec (.receiverArmed t) s = .next { s with eng := { s.eng with
      now := max s.eng.now (t : Rat)
      link := { s.eng.link with armed := true, sync := autobaud s.eng.straps, cand := [], candFrom := max s.eng.now (t : Rat) } } }) ∧
    (∀ (raw edges : List Nat) (tb : Time) (s : State), s.quiet → s.eng.link.armed = true → s.eng.link.sync = true → edges = deglitch raw →
      syncOk edges true = true → s.eng.link.cand = [] ∨ s.eng.link.cand = [nth 0 edges 0] → s.eng.link.candFrom ≤ ((nth 0 edges 0 : Nat) : Rat) →
      tb = ((nth 0 edges 8 - nth 0 edges 0 : Nat) : Rat) / 8 →
      exec (.syncCharacter raw true) s = .next (s.acted { s.eng.at ((nth 0 edges 0 : Nat) + 19 / 2 * tb).floor.toNat with
        link := { s.eng.link with
          tr := some tb, sync := false, syncRaised := false, ref := some ((nth 0 edges 0 : Nat) + 19 / 2 * tb), cand := [] } })) ∧
    (∀ (raw edges : List Nat) (stop : Bool) (l : List Nat) (n : Nat) (s : State), s.quiet → s.eng.link.armed = true → s.eng.link.sync = true →
      edges = deglitch raw → (syncOk edges stop && candOwn edges s.eng) = false → candRun s.eng.link.candFrom s.eng.link.cand edges = (l, n) → l.length < 10 →
      exec (.syncCharacter raw stop) s = .next (s.acted (candidatesFail n l (s.eng.at (edges.getLast?.getD 0))))) ∧
    (∀ (edges : List Nat) (stop : Bool) (s : State), s.calm → s.eng.link.armed = false ∨ s.eng.link.sync = false →
      exec (.syncCharacter edges stop) s = .next s) ∧
    (∀ l : List Nat, (∀ a b x y, l = a ++ x :: y :: b → x ≤ y ∧ 15 * 393216000 ≤ 1000000000 * (y - x)) → deglitch l = l) ∧
    (∀ (x y : Nat) (l : List Nat), x ≤ y → 1000000000 * (y - x) < 15 * 393216000 → deglitch (x :: y :: l) = deglitch l) ∧
    ∀ (edges l : List Nat) (n t : Nat) (s : State), s.quiet → s.eng.link.armed = true → s.eng.link.sync = true →
      candRun s.eng.link.candFrom s.eng.link.cand ((deglitch edges).filter fun x => decide (x ≤ t)) = (l, n) → l ≠ [] →
      (candDead l t = true → exec (.syncCandidateRejected ⟨edges, t⟩) s = .next (s.acted (candidatesFail (n + 1) []
        { s.eng.at t with link := { s.eng.link with candFrom := (t : Rat) } }))) ∧
      (candDead l t = false → exec (.syncCandidateRejected ⟨edges, t⟩) s = .next (s.acted (candidatesFail n l (s.eng.at t))))

/-- R290: the engine after the framing error of a character with start edge `t`, after which RXD rises at `rise`; `full` is its stop sample. -/
def framingFails (full : Time) (rise : Nat) (e : Engine) : Engine :=
  ({ e with
    now := max e.now full
    link := { e.link with
      parser := ⟨none, none, [], false⟩, framing := min 0xFFFF (e.link.framing + 1), ref := some (max full (rise : Rat)) } }).raise 0x31

/-- A character that the parser only notes (a status byte), a character whose S9 is low and the framing error alike, and the idle line (R260
to R263, R272 to R277, R290, R302, R303). The idle line does not come where a start edge arrives by its instant, in a character that waits
behind it (R302). No start edge counts before the reference instant that the last character or framing error left. -/
def CharactersAndIdleLine : Prop :=
  (∀ (x : BitVec 10) (t rise : Nat) (tr : Time) (s : State), s.quiet → s.eng.mode ≠ .load → armedAt (t : Rat) s.eng = true →
    s.eng.link.tr = some tr → x.getLsbD 0 = false → x.getLsbD 9 = true →
    0x80 ≤ (x.extractLsb' 1 8).toNat → (x.extractLsb' 1 8).toNat < 0xF0 →
    exec (.character x ⟨t, rise⟩) s = .next (s.acted { s.eng with
      now := max s.eng.now ((t : Rat) + 19 / 2 * tr)
      link := { s.eng.link with
        parser := ⟨some (x.extractLsb' 1 8), some (x.extractLsb' 1 8), [], false⟩, ref := some ((t : Rat) + 19 / 2 * tr)
        partialCount := if s.eng.link.parser.status.isSome then min 0xFFFF (s.eng.link.partialCount + 1) else s.eng.link.partialCount } })) ∧
    (∀ (x : BitVec 10) (t rise : Nat) (s : State), s.calm → (x.getLsbD 0 = true ∨ armedAt (t : Rat) s.eng = false) →
      exec (.character x ⟨t, rise⟩) s = .next s) ∧
    (∀ (x : BitVec 10) (t rise : Nat) (tr : Time) (s : State), s.quiet → armedAt (t : Rat) s.eng = true → s.eng.link.tr = some tr →
      exec (.framingError t rise) s = .next (s.acted (framingFails ((t : Rat) + 19 / 2 * tr) rise s.eng)) ∧
      (x.getLsbD 0 = false → x.getLsbD 9 = false → exec (.character x ⟨t, rise⟩) s = exec (.framingError t rise) s)) ∧
    (∀ (t rise : Nat) (s : State), s.calm → armedAt (t : Rat) s.eng = false → exec (.framingError t rise) s = .next s) ∧
    (∀ (t : Rat) (e : Engine), armedAt t e = true ↔
      e.link.armed = true ∧ e.link.sync = false ∧ e.link.tr.isSome = true ∧ ∀ r, e.link.ref = some r → r ≤ t) ∧
    ∀ (t : Nat) (r tr : Time) (s : State), s.running = true → s.eng.mode ≠ .load → s.eng.link.ref = some r → s.eng.link.tr = some tr →
      s.eng.link.sync = false → r + 10 * tr ≤ (t : Rat) →
      (edgeBy t s.eng s.pending = true → exec (.idleLine t) s = .next s) ∧
      (edgeBy t s.eng s.pending = false → exec (.idleLine t) s = .next { s with eng := { s.eng with
        now := max s.eng.now (t : Rat)
        link := { s.eng.link with
          ref := none, sync := autobaud s.eng.straps, rx := [], rxStart := none, cand := [], candFrom := max s.eng.now (t : Rat)
          parser := { s.eng.link.parser with status := none, data := [], sysex := false }
          partialCount := if s.eng.link.parser.status.isSome || s.eng.link.parser.sysex then min 0xFFFF (s.eng.link.partialCount + 1)
            else s.eng.link.partialCount } } })

/-- R302: which start edges keep the idle line away. -/
def StartEdgesComeFirst : Prop :=
  ∀ (t : Nat) (e : Engine) (l : List Instr), edgeBy t e l = true ↔
    ∃ u ≤ t, armedAt (u : Rat) e = true ∧ ((∃ x r, Instr.character x ⟨u, r⟩ ∈ l) ∨ ∃ r, Instr.framingError u r ∈ l)

/-- The receiver below the messages. -/
def Obligations.PortReceives : Prop := ReceiverFindsTheBitTime ∧ CharactersAndIdleLine ∧ StartEdgesComeFirst

/-- Every channel message that is complete before F is held with its time in crystal periods, while the 512 bytes last (R181, R279). -/
def SteepHoldsMessages : Prop :=
  ∀ (i : Instr) (bs : List Byte) (t : Nat) (s : State), channelMessage i = some (bs, t) → s.steeping t →
    heldBytes s.eng.steep.held + bs.length ≤ 512 →
    exec i s = .next { s with eng := { heardAs (nth 0#8 bs 0) t s.eng with
      steep := { s.eng.steep with held := s.eng.steep.held ++ [⟨bs, t / 16⟩] } } }

/-- Before F the latest START, CONTINUE or STOP is held, a Timing Clock and the ignored bytes are not (R182, Table 7-7); none of them touches
the message in progress. -/
def SteepHoldsTransport : Prop :=
  ∀ (i : Instr) (b : Byte) (t : Nat) (s : State), realTimeMessage i = some (b, t) → s.running = true → s.calm → s.eng.served = false →
    midiDue t s.eng = true →
    exec i s = .next { s with eng := { s.eng with
      now := max s.eng.now (t : Rat), link := { s.eng.link with ref := some (t : Rat) }
      steep := if b = 0xFA#8 ∨ b = 0xFB#8 ∨ b = 0xFC#8 then { s.eng.steep with heldRt := some ⟨[b], t / 16⟩ } else s.eng.steep } }

/-- R183: a note-on that does not fit the 512 bytes is dropped, counted in OVERRUN, with LINK_OVERRUN at the first drop. -/
def SteepDropsNoteOnsFirst : Prop :=
  ∀ (ch : BitVec 4) (n v : BitVec 7) (t : Nat) (s : State), s.steeping t → v ≠ 0 → 509 < heldBytes s.eng.steep.held →
    exec (.noteOn ch n v t) s = .next { s with eng := { (s.eng.at t).raiseIf (!s.eng.steep.heldOver) 0x30 with
      steep := { s.eng.steep with heldOver := true }
      link := { s.eng.link with
        parser := ⟨some (0x90#8 ||| ch.setWidth 8), none, [], false⟩, ref := some (t : Rat)
        overrun := min 0xFFFF (s.eng.link.overrun + 1) } } }

/-- R183: what a message that is not a note-on takes away where it does not fit: held note-ons leave, the oldest first, until it fits or
none is left; each one counts in OVERRUN, and so does the message itself where it still does not fit. -/
def HeldNoteOnsMakeRoom : Prop :=
  (∀ (i : Instr) (bs : List Byte) (h : Held) (kept : List Held) (fits : Bool) (t : Nat) (s : State), channelMessage i = some (bs, t) → s.steeping t →
    h = ⟨bs, t / 16⟩ → h.isNoteOn = false → 512 < heldBytes s.eng.steep.held + bs.length → kept = makeRoom bs.length 512 s.eng.steep.held →
    fits = decide (heldBytes kept + bs.length ≤ 512) →
    exec i s = .next { s with eng := { (s.eng.at t).raiseIf (!s.eng.steep.heldOver) 0x30 with
      steep := { s.eng.steep with held := if fits = true then kept ++ [h] else kept, heldOver := true }
      link := { s.eng.link with
        parser := ⟨some (nth 0#8 bs 0), none, [], false⟩, ref := some (t : Rat)
        overrun := min 0xFFFF (s.eng.link.overrun + (s.eng.steep.held.length - kept.length + if fits = true then 0 else 1)) } } }) ∧
  (∀ (need n : Nat) (l : List Held), heldBytes l + need ≤ 512 ∨ (∀ x ∈ l, x.isNoteOn = false) → makeRoom need n l = l) ∧
  (∀ (need n : Nat) (a b : List Held) (x : Held), 512 < heldBytes (a ++ x :: b) + need → (∀ y ∈ a, y.isNoteOn = false) → x.isNoteOn = true →
    makeRoom need (n + 1) (a ++ x :: b) = makeRoom need n (a ++ b)) ∧
  ∀ (need : Nat) (l : List Held), l.length ≤ 512 → heldBytes (makeRoom need 512 l) + need ≤ 512 ∨ ∀ x ∈ makeRoom need 512 l, x.isNoteOn = false

/-- What arrives before full service. -/
def Obligations.EarlyMessagesAreHeld : Prop := SteepHoldsMessages ∧ SteepHoldsTransport ∧ SteepDropsNoteOnsFirst ∧ HeldNoteOnsMakeRoom

/-- A channel message for a part that the part table does not enable does nothing (R280). -/
def DisabledPartsIgnoreMessages : Prop :=
  ∀ (i : Instr) (bs : List Byte) (t : Nat) (s : State), channelMessage i = some (bs, t) → s.hears t →
    partOn s.caddy s.eng ((nth 0#8 bs 0).toNat % 16 + 1) = false → exec i s = .next { s with eng := heardAs (nth 0#8 bs 0) t s.eng }

/-- System exclusive is discarded up to its F7; a system common message with its data is discarded; both end running status
(R276, R277, Table 7-7). -/
def SystemMessagesAreDiscarded : Prop :=
  (∀ (data : List (BitVec 7)) (t : Nat) (s : State), s.quiet → s.listening t →
    exec (.systemExclusive data t) s = .next { s with eng := { s.eng with
      now := max s.eng.now (t : Rat), evq := [], link := { s.eng.link with parser := ⟨none, none, [], false⟩, ref := some (t : Rat) } } }) ∧
    (∀ (k : Fin 7) (data : List (BitVec 7)) (t : Nat) (s : State), s.quiet → s.listening t →
      data.length = nth 0 [1, 2, 1, 0, 0, 0, 0] k.val →
      exec (.systemCommon k data t) s = .next { s with eng := { s.eng with
        now := max s.eng.now (t : Rat), evq := [], link := { s.eng.link with parser := ⟨none, none, [], false⟩, ref := some (t : Rat) } } }) ∧
    ∀ (k : Fin 4) (t : Nat) (s : State), s.quiet → midiDue t s.eng = true → s.eng.served = true →
      exec (.ignoredRealTime k t) s = .next { s with eng := { s.eng with
        now := max s.eng.now (t : Rat), evq := [], link := { s.eng.link with ref := some (t : Rat) } } }

/-- Messages that leave nothing but the state of the receiver. -/
def Obligations.MessagesWithoutEffect : Prop := DisabledPartsIgnoreMessages ∧ SystemMessagesAreDiscarded

/-! ## Control changes (Table 7-5) -/

/-- The controllers that only set values of the part record. -/
def ControllersAreRecorded : Prop :=
  ∀ (ch : BitVec 4) (v : BitVec 7) (t : Nat) (r : PartRec) (s : State), s.hears t → partOn s.caddy s.eng (partOf ch) = true →
    r = s.eng.part (partOf ch) →
    exec (.partVolume ch v t) s = .next { s with eng := controlled ch t s.eng { r with cc := r.cc.set 7 v.toNat } } ∧
    exec (.pan ch v t) s = .next { s with eng := controlled ch t s.eng { r with cc := r.cc.set 10 v.toNat } } ∧
    exec (.bankSelectMsb ch v t) s = .next { s with eng := controlled ch t s.eng { r with
      cc := r.cc.set 0 v.toNat, latch := some (if v.toNat ≤ 3 then some v.toNat else none) } } ∧
    exec (.portamento ch v t) s = .next { s with eng := controlled ch t s.eng { r with
      cc := r.cc.set 65 v.toNat, porta := some (decide (64 ≤ v.toNat)) } } ∧
    exec (.rpnSelect ch true v t) s = .next { s with eng := controlled ch t s.eng { r with
      cc := r.cc.set 101 v.toNat, rpnMsb := v.toNat } } ∧
    exec (.rpnSelect ch false v t) s = .next { s with eng := controlled ch t s.eng { r with
      cc := r.cc.set 100 v.toNat, rpnLsb := v.toNat } } ∧
    (∀ m, exec (.nrpnSelect ch m v t) s = .next { s with eng := controlled ch t s.eng { r with
      cc := r.cc.set (if m then 99 else 98) v.toNat, rpnMsb := 127, rpnLsb := 127 } }) ∧
    (∀ k : BitVec 7, k.toNat < 120 → [0, 6, 38, 65, 98, 99, 100, 101, 64, 66, 16, 17, 18, 19, 80, 81, 82, 83].contains k.toNat = false →
      exec (.controlChange ch k v t) s = .next { s with eng := controlled ch t s.eng { r with cc := r.cc.set k.toNat v.toNat } }) ∧
    (64 ≤ v.toNat → exec (.sustain ch v t) s = .next { s with eng := controlled ch t s.eng { r with cc := r.cc.set 64 v.toNat } })

/-- Data Entry sets the registered parameter that is selected: bend range in semitones and cents up to 24, fine tuning, coarse tuning; with
none selected only the controller is recorded (R287, Table 7-6). -/
def Obligations.DataEntrySetsTheParameter : Prop :=
  ∀ (ch : BitVec 4) (v : BitVec 7) (t : Nat) (r : PartRec) (s : State), s.hears t → partOn s.caddy s.eng (partOf ch) = true →
    r = s.eng.part (partOf ch) → ∃ m l : PartRec,
    exec (.dataEntryMsb ch v t) s = .next { s with eng := controlled ch t s.eng m } ∧
    exec (.dataEntryLsb ch v t) s = .next { s with eng := controlled ch t s.eng l } ∧
    (r.rpnMsb = 0 → r.rpnLsb = 0 →
      m = { r with cc := r.cc.set 6 v.toNat, bendMsb := v.toNat, bendRange := min 24 ((v.toNat : Rat) + ((min r.bendLsb 99 : Nat) : Rat) / 100) } ∧
      l = { r with cc := r.cc.set 38 v.toNat, bendLsb := v.toNat, bendRange := min 24 ((r.bendMsb : Rat) + ((min v.toNat 99 : Nat) : Rat) / 100) }) ∧
    (r.rpnMsb = 0 → r.rpnLsb = 1 →
      m = { r with cc := r.cc.set 6 v.toNat, fineMsb := v.toNat } ∧ l = { r with cc := r.cc.set 38 v.toNat, fineLsb := v.toNat }) ∧
    (r.rpnMsb = 0 → r.rpnLsb = 2 →
      m = { r with cc := r.cc.set 6 v.toNat, coarseMsb := v.toNat } ∧ l = { r with cc := r.cc.set 38 v.toNat, coarseLsb := v.toNat }) ∧
    (r.rpnMsb ≠ 0 ∨ 2 < r.rpnLsb → m = { r with cc := r.cc.set 6 v.toNat } ∧ l = { r with cc := r.cc.set 38 v.toNat })

/-- A CONTROL_CHANGE whose number has a row of its own is that row's command: Table 7-5 gives the number its effect, and that the two rows
of the table of commands are one is the model's reading (log 9). -/
def ControlChangeIsTheRow : Prop :=
  ∀ (ch : BitVec 4) (v : BitVec 7) (t : Nat) (s : State),
    exec (.controlChange ch 0 v t) s = exec (.bankSelectMsb ch v t) s ∧ exec (.controlChange ch 6 v t) s = exec (.dataEntryMsb ch v t) s ∧
    exec (.controlChange ch 7 v t) s = exec (.partVolume ch v t) s ∧ exec (.controlChange ch 10 v t) s = exec (.pan ch v t) s ∧
    exec (.controlChange ch 38 v t) s = exec (.dataEntryLsb ch v t) s ∧ exec (.controlChange ch 64 v t) s = exec (.sustain ch v t) s ∧
    exec (.controlChange ch 65 v t) s = exec (.portamento ch v t) s ∧ exec (.controlChange ch 66 v t) s = exec (.sostenuto ch v t) s ∧
    exec (.controlChange ch 98 v t) s = exec (.nrpnSelect ch false v t) s ∧ exec (.controlChange ch 99 v t) s = exec (.nrpnSelect ch true v t) s ∧
    exec (.controlChange ch 100 v t) s = exec (.rpnSelect ch false v t) s ∧ exec (.controlChange ch 101 v t) s = exec (.rpnSelect ch true v t) s ∧
    exec (.controlChange ch 120 v t) s = exec (.allSoundOff ch v t) s ∧ exec (.controlChange ch 121 v t) s = exec (.resetAllControllers ch v t) s ∧
    (∀ k : Fin 5, exec (.controlChange ch (BitVec.ofNat 7 (123 + k.val)) v t) s = exec (.allNotesOff ch k v t) s) ∧
    ∀ m : Fin 8, exec (.controlChange ch (nth 0#7 [16#7, 17#7, 18#7, 19#7, 80#7, 81#7, 82#7, 83#7] m.val) v t) s = exec (.macros ch m v t) s

/-- Controllers, and the rows of their own. -/
def Obligations.ControlChanges : Prop := ControllersAreRecorded ∧ ControlChangeIsTheRow

/-- A macro controller records its value and gives the macro the target v / 127, reached in TIME of the patch from the target frame on; where
the envelope drive holds the macro, only the controller is recorded (R811, R814, R847). -/
def MacroControllersSetTheTarget : Prop :=
  ∀ (ch : BitVec 4) (m : Fin 8) (v : BitVec 7) (t : Nat) (r r' : PartRec) (s : State), s.hears t → partOn s.caddy s.eng (partOf ch) = true →
    r = s.eng.part (partOf ch) → ch.toNat < s.eng.parts.length →
    r' = { r with cc := r.cc.set (nth 0 [16, 17, 18, 19, 80, 81, 82, 83] m.val) v.toNat } →
    (driven s.caddy s.eng (partOf ch) m.val = true → exec (.macros ch m v t) s = .next { s with eng := controlled ch t s.eng r' }) ∧
    (driven s.caddy s.eng (partOf ch) m.val = false → ∃ x : Macro, x.v1 = q32 v.toNat 127 ∧ x.start = targetAt t s.eng ∧
      x.n = framesOf s.eng.kettle.fam (f32Rat (slotF 0#32 (q32 10) (patchSlot s.caddy r.patch (0x1B3 + 4 * m.val)))) ∧
      exec (.macros ch m v t) s = .next { s with eng :=
        (recorded ch { r' with macros := r.macros.set m.val x } (controlled ch t s.eng r')) })

/-- Sustain turned off where nothing of the part is deferred or kept, and Sostenuto: the controller, the latches of the held voices, and
nothing else but the count of the events that order note-offs (R436 to R439, R433). -/
def PedalsLatchAndLetGo : Prop :=
  ∀ (ch : BitVec 4) (v : BitVec 7) (t : Nat) (r : PartRec) (s : State), s.hears t → partOn s.caddy s.eng (partOf ch) = true →
    r = s.eng.part (partOf ch) → s.eng.keys (partOf ch) = [] → (∀ x ∈ s.eng.ofPart (partOf ch), x.2.state ≠ .deferred) →
    s.eng.tempo.keys.length = 16 →
    (v.toNat < 64 → exec (.sustain ch v t) s = .next { s with eng := { controlled ch t s.eng { r with cc := r.cc.set 64 v.toNat } with
      cond := { s.eng.cond with order := s.eng.cond.order + 1 } } }) ∧
    ∃ u, exec (.sostenuto ch v t) s = .next u ∧
      u = { s with eng := { controlled ch t s.eng { r with cc := r.cc.set 66 v.toNat } with
        cond := { s.eng.cond with slots := u.eng.cond.slots, order := u.eng.cond.order } } } ∧
      (64 ≤ v.toNat → nth 0 r.cc 66 < 64 → u.eng.cond.order = s.eng.cond.order ∧ ∀ i < 256, ∀ q, s.eng.occ i = some q →
        u.eng.occ i = some (if q.part = partOf ch ∧ q.state = .held then { q with latched := true } else q)) ∧
      (v.toNat < 64 → 64 ≤ nth 0 r.cc 66 → u.eng.cond.order = s.eng.cond.order + 1 ∧ ∀ i < 256, ∀ q, s.eng.occ i = some q →
        u.eng.occ i = some (if q.part = partOf ch then { q with latched := false } else q)) ∧
      ((64 ≤ v.toNat ↔ 64 ≤ nth 0 r.cc 66) → u.eng.cond = s.eng.cond)

/-- The macro controllers and the pedals. -/
def Obligations.MacrosAndPedals : Prop := MacroControllersSetTheTarget ∧ PedalsLatchAndLetGo

/-! ## Notes (10, Table 7-4) -/

/-- A note of the part of channel `ch` starts a voice of its own: the part is on, in polyphonic mode without a lane, its note does not sound,
its cap is not reached, the fence ceiling is not in force, and slot `i` is the lowest free one (R427, R430). -/
def NoteStarts (ch : BitVec 4) (note : BitVec 7) (t i : Nat) (s : State) : Prop :=
  s.hears t ∧ partOn s.caddy s.eng (partOf ch) = true ∧ partMode s.caddy s.eng (partOf ch) = 0 ∧ laneOf s.eng (partOf ch) = none ∧
    arpMode s.caddy s.eng (partOf ch) = 0 ∧ (∀ x ∈ s.eng.ofPart (partOf ch), x.2.note ≠ note.toNat) ∧
    (s.eng.ofPart (partOf ch)).length < partCap s.caddy s.eng (partOf ch) ∧ s.eng.cond.ceiling = none ∧
    (s.eng.seen (t : Rat)).freeSlots.head? = some i ∧ i < 256 ∧ s.eng.cond.slots.length = 256 ∧ s.eng.cond.queues.length = 256 ∧
    ((s.eng.queue i).filter Entry.counts).length < 16

/-- NOTE_ON with a free slot: the slot takes the voice and its queue the note-on entry for the target frame; nothing else of the conductor
but the part's latest note and the key changes. -/
def Obligations.NoteOnTakesAFreeSlot : Prop :=
  ∀ (ch : BitVec 4) (note vel : BitVec 7) (t i : Nat) (s : State), NoteStarts ch note t i s → vel ≠ 0 →
    ∃ u r gl, exec (.noteOn ch note vel t) s = .next u ∧ u.eng.occ i = some r ∧
      r.part = partOf ch ∧ r.note = note.toNat ∧ r.patch = (s.eng.part (partOf ch)).patch ∧ r.state = .held ∧ r.group = [i] ∧
      r.stamp = stampAt t s.eng ∧ r.order = s.eng.cond.order + 1 ∧ r.latched = false ∧ r.id = s.eng.cond.nextId ∧
      u.eng.cond.nextId = s.eng.cond.nextId + 1 ∧
      u.eng.queue i = s.eng.queue i ++
        [⟨targetAt t s.eng, s.eng.cond.nextId, .noteOn (partOf ch) note.toNat vel.toNat (s.eng.part (partOf ch)).patch 0 1 gl⟩] ∧
      (∀ j, j ≠ i → u.eng.occ j = s.eng.occ j ∧ u.eng.queue j = s.eng.queue j) ∧
      u.eng.cond.noteStacks = s.eng.cond.noteStacks ∧
      u = { s with eng := { heardAs (0x90#8 ||| ch.setWidth 8) t s.eng with
        cond := { s.eng.cond with
          slots := u.eng.cond.slots, queues := u.eng.cond.queues, nextId := u.eng.cond.nextId, order := s.eng.cond.order + 1
          glide := s.eng.cond.glide.set ch.toNat (some note.toNat), vel := s.eng.cond.vel.set ch.toNat vel.toNat }
        tempo := { s.eng.tempo with keys := u.eng.tempo.keys } } }

/-- One voice of the part of channel `ch` in slot `i` sounds `note`, held by its key; the part has no lane and is in polyphonic mode. -/
def NoteSounds (ch : BitVec 4) (note : BitVec 7) (t i : Nat) (r : SlotRec) (s : State) : Prop :=
  s.hears t ∧ partOn s.caddy s.eng (partOf ch) = true ∧ partMode s.caddy s.eng (partOf ch) = 0 ∧ laneOf s.eng (partOf ch) = none ∧
    s.eng.occupied = [(i, r)] ∧ r.part = partOf ch ∧ r.note = note.toNat ∧ r.state = .held ∧ r.group = [i] ∧ s.eng.keys (partOf ch) = [] ∧
    s.eng.tempo.keys.length = 16 ∧ s.eng.cond.slots.length = 256 ∧ s.eng.cond.queues.length = 256 ∧
    ((s.eng.queue i).filter Entry.counts).length < 16

/-- NOTE_OFF, and NOTE_ON with velocity 0 as a note-off of velocity 64: RELEASE, or deferral while Sustain is on or the voice is latched
(R426, R429, R436, R437). -/
def Obligations.NoteOffReleasesOrDefers : Prop :=
  ∀ (ch : BitVec 4) (note vel : BitVec 7) (t i : Nat) (r : SlotRec) (s : State), NoteSounds ch note t i r s →
    ∃ u r', exec (.noteOff ch note vel t) s = .next u ∧ u.eng.occ i = some r' ∧
      r' = { r with state := r'.state, stamp := stampAt t s.eng, order := s.eng.cond.order + 1, relVel := vel.toNat } ∧
      (r.latched = true ∨ 64 ≤ s.eng.ccOf (partOf ch) 64 → r'.state = .deferred ∧ u.eng.cond.queues = s.eng.cond.queues) ∧
      (r.latched = false → s.eng.ccOf (partOf ch) 64 < 64 → r'.state = .released ∧
        u.eng.cond.queues = s.eng.cond.queues.set i (s.eng.queue i ++ [⟨targetAt t s.eng, r.id, .release vel.toNat⟩])) ∧
      u = { s with eng := { heardAs (0x80#8 ||| ch.setWidth 8) t s.eng with
        cond := { s.eng.cond with slots := u.eng.cond.slots, queues := u.eng.cond.queues, order := s.eng.cond.order + 1 } } } ∧
      ∃ w, exec (.noteOff ch note 64 t) s = .next w ∧ exec (.noteOn ch note 0 t) s = .next { w with eng := { w.eng with
        link := { w.eng.link with parser := ⟨some (0x90#8 ||| ch.setWidth 8), none, [], false⟩ } } }

/-! ## Allocation of voices (10.4, 10.5, 10.9, 7.9) -/

/-- Key 1 of Table 10-4: class 3 first, the chime after every other voice (R444). -/
def stealClass (r : SlotRec) : Nat := if r.part = 0 then 4 else 3 - r.cls

/-- Key 2 of Table 10-4. -/
def stealState (r : SlotRec) : Nat := if r.state = .released then 0 else if r.state = .deferred then 1 else 2

/-- Table 10-4, key by key: `q` is stolen before `r`. -/
def StealsFirst (q r : SlotRec) : Prop :=
  stealClass q < stealClass r ∨ stealClass q = stealClass r ∧ (stealState q < stealState r ∨ stealState q = stealState r ∧
    (q.stamp < r.stamp ∨ q.stamp = r.stamp ∧ (q.order < r.order ∨ q.order = r.order ∧ q.group.head?.getD 0 < r.group.head?.getD 0)))

/-- A note of the part of channel `ch` arrives in voice mode `mode`: no lane takes it, and no fence ceiling is in force. -/
def NoteComes (ch : BitVec 4) (t mode : Nat) (s : State) : Prop :=
  s.hears t ∧ partOn s.caddy s.eng (partOf ch) = true ∧ partMode s.caddy s.eng (partOf ch) = mode ∧ laneOf s.eng (partOf ch) = none ∧
    arpMode s.caddy s.eng (partOf ch) = 0 ∧ s.eng.cond.ceiling = none ∧ s.eng.cond.slots.length = 256 ∧ s.eng.cond.queues.length = 256 ∧
    s.eng.cond.noteStacks.length = 16

/-- Queue `i` has a place left. -/
def QueueHasRoom (s : State) (i : Nat) : Prop := ((s.eng.queue i).filter Entry.counts).length < 16

/-- The record of the voices that the note starts in the slots `g` (R416). -/
def newVoice (ch : BitVec 4) (note : BitVec 7) (t mode : Nat) (g : List Nat) (s : State) : SlotRec :=
  ⟨s.eng.cond.nextId, partOf ch, note.toNat, (s.eng.part (partOf ch)).patch, mode,
    slotU 0 3 (patchSlot s.caddy (s.eng.part (partOf ch)).patch 0x006), g, .held, stampAt t s.eng, s.eng.cond.order + 1, false, 64⟩

/-- The NOTE_ON entry of voice `j` of the `m` that the note starts. -/
def noteOnEntry (ch : BitVec 4) (note vel : BitVec 7) (t j m : Nat) (s : State) : Entry :=
  ⟨targetAt t s.eng, s.eng.cond.nextId, .noteOn (partOf ch) note.toNat vel.toNat (s.eng.part (partOf ch)).patch j m
    (nth none s.eng.cond.glide ch.toNat)⟩

/-- What a note-on changes besides slots, queues and stacks: the order of the events, the key, and, where it starts, the part's latest note;
`k` voice numbers are given out. -/
def NoteOnLeaves (ch : BitVec 4) (note vel : BitVec 7) (t k : Nat) (s u : State) : Prop :=
  u = { s with eng := { heardAs (0x90#8 ||| ch.setWidth 8) t s.eng with
    cond := { s.eng.cond with
      slots := u.eng.cond.slots, queues := u.eng.cond.queues, noteStacks := u.eng.cond.noteStacks, nextId := s.eng.cond.nextId + k
      order := s.eng.cond.order + 1, glide := s.eng.cond.glide.set ch.toNat (some note.toNat), vel := s.eng.cond.vel.set ch.toNat vel.toNat }
    tempo := { s.eng.tempo with keys := u.eng.tempo.keys } } }

/-- Only slot `i` and its queue change. -/
def OnlySlot (i : Nat) (s u : State) : Prop := ∀ j, j ≠ i → u.eng.occ j = s.eng.occ j ∧ u.eng.queue j = s.eng.queue j

/-- A note without a free slot inside its cap, or at its cap, takes the slot of the voice that Table 10-4 ranks first: of the part's own at
the cap, else of every voice of class 1 to 3 (R431 to R433, R941). Voices in groups of their own are what is stated here. -/
def NotesSteal : Prop :=
  ∀ (ch : BitVec 4) (note vel : BitVec 7) (t i : Nat) (v : SlotRec) (pool : List (Nat × SlotRec)) (s : State), NoteComes ch t 0 s → vel ≠ 0 →
    (∀ x ∈ s.eng.ofPart (partOf ch), x.2.note ≠ note.toNat ∨ x.2.state = .released) → 1 ≤ partCap s.caddy s.eng (partOf ch) →
    ((s.eng.ofPart (partOf ch)).length = partCap s.caddy s.eng (partOf ch) ∧ pool = s.eng.ofPart (partOf ch) ∨
      (s.eng.ofPart (partOf ch)).length < partCap s.caddy s.eng (partOf ch) ∧ (s.eng.seen (t : Rat)).freeSlots = [] ∧
        pool = s.eng.occupied.filter fun x => x.2.part != 0 && x.2.cls != 0) →
    (∀ x ∈ pool, x.2.group = [x.1] ∧ x.2.cls ≤ 3) → (i, v) ∈ pool → (∀ x ∈ pool, x = (i, v) ∨ StealsFirst v x.2) → QueueHasRoom s i →
    ∃ u, exec (.noteOn ch note vel t) s = .next u ∧ u.eng.occ i = some (newVoice ch note t 0 [i] s) ∧
      u.eng.queue i = s.eng.queue i ++ [⟨targetAt t s.eng, v.id, .steal⟩, noteOnEntry ch note vel t 0 1 s] ∧ OnlySlot i s u ∧
      u.eng.cond.noteStacks = s.eng.cond.noteStacks ∧ NoteOnLeaves ch note vel t 1 s u

/-- With no slot and no candidate the note is discarded: only its key and the order of the events are left of it (R434). -/
def NotesAreDiscarded : Prop :=
  ∀ (ch : BitVec 4) (note vel : BitVec 7) (t : Nat) (s : State), NoteComes ch t 0 s → vel ≠ 0 →
    (∀ x ∈ s.eng.ofPart (partOf ch), x.2.note ≠ note.toNat ∨ x.2.state = .released) →
    (s.eng.ofPart (partOf ch)).length < partCap s.caddy s.eng (partOf ch) → (s.eng.seen (t : Rat)).freeSlots = [] →
    (∀ x ∈ s.eng.occupied, x.2.part = 0 ∨ x.2.cls = 0) →
    ∃ u, exec (.noteOn ch note vel t) s = .next u ∧
      u = { s with eng := { heardAs (0x90#8 ||| ch.setWidth 8) t s.eng with
        cond := { s.eng.cond with
          noteStacks := s.eng.cond.noteStacks.set ch.toNat ((s.eng.stack (partOf ch)).filter fun k => k != note.toNat), order := s.eng.cond.order + 1 }
        tempo := { s.eng.tempo with keys := u.eng.tempo.keys } } }

/-- A note that sounds already is released with velocity 64 and starts again in the lowest free slot (R426). -/
def NotesRestrike : Prop :=
  ∀ (ch : BitVec 4) (note vel : BitVec 7) (t i j : Nat) (r : SlotRec) (s : State), NoteComes ch t 0 s → vel ≠ 0 → s.eng.occupied = [(i, r)] →
    r.part = partOf ch → r.note = note.toNat → r.state ≠ .released → r.group = [i] → 2 ≤ partCap s.caddy s.eng (partOf ch) →
    (s.eng.seen (t : Rat)).freeSlots.head? = some j → j < 256 → QueueHasRoom s i → QueueHasRoom s j →
    ∃ u, exec (.noteOn ch note vel t) s = .next u ∧ u.eng.occ j = some (newVoice ch note t 0 [j] s) ∧
      u.eng.occ i = some { r with state := .released, stamp := stampAt t s.eng, order := s.eng.cond.order + 1, relVel := 64 } ∧
      u.eng.queue i = s.eng.queue i ++ [⟨targetAt t s.eng, r.id, .release 64⟩] ∧
      u.eng.queue j = s.eng.queue j ++ [noteOnEntry ch note vel t 0 1 s] ∧
      (∀ k, k ≠ i → k ≠ j → u.eng.occ k = s.eng.occ k ∧ u.eng.queue k = s.eng.queue k) ∧
      u.eng.cond.noteStacks = s.eng.cond.noteStacks ∧ NoteOnLeaves ch note vel t 1 s u

/-- A unison note takes the lowest free slots as one group, as many as the patch says and the cap allows (R427, R430, R471). -/
def UnisonTakesAGroup : Prop :=
  ∀ (ch : BitVec 4) (note vel : BitVec 7) (t m : Nat) (g : List Nat) (s : State), NoteComes ch t 1 s → vel ≠ 0 →
    (∀ x ∈ s.eng.ofPart (partOf ch), x.2.note ≠ note.toNat ∨ x.2.state = .released) →
    m = min (slotU 2 8 (patchSlot s.caddy (s.eng.part (partOf ch)).patch 0x009)) (partCap s.caddy s.eng (partOf ch)) →
    (s.eng.ofPart (partOf ch)).length + m ≤ partCap s.caddy s.eng (partOf ch) → g = (s.eng.seen (t : Rat)).freeSlots.take m → g.length = m →
    (∀ i ∈ g, i < 256 ∧ QueueHasRoom s i) →
    ∃ u, exec (.noteOn ch note vel t) s = .next u ∧
      (∀ j < m, ∀ i, g[j]? = some i → u.eng.occ i = some (newVoice ch note t 1 g s) ∧
        u.eng.queue i = s.eng.queue i ++ [noteOnEntry ch note vel t j m s]) ∧
      (∀ i, i ∉ g → u.eng.occ i = s.eng.occ i ∧ u.eng.queue i = s.eng.queue i) ∧
      u.eng.cond.noteStacks = s.eng.cond.noteStacks ∧ NoteOnLeaves ch note vel t 1 s u

/-- The one voice of the part in mono or legato mode, in slot `i`, with the stack `st` (R428). -/
def MonoSounds (ch : BitVec 4) (t mode i : Nat) (r : SlotRec) (st : List Nat) (s : State) : Prop :=
  NoteComes ch t mode s ∧ (mode = 2 ∨ mode = 3) ∧ s.eng.occupied = [(i, r)] ∧ r.part = partOf ch ∧ r.vmode = mode ∧ r.group = [i] ∧
    s.eng.stack (partOf ch) = st ∧ QueueHasRoom s i

/-- Mono and legato notes: the first note takes the lowest free slot; a later one retriggers the voice, in legato mode only where the stack
was empty; the keys stand on the part's stack in their order (R425, R428, Table 10-3). -/
def MonoNotesShareAVoice : Prop :=
  (∀ (ch : BitVec 4) (note vel : BitVec 7) (t mode i : Nat) (s : State), NoteComes ch t mode s → mode = 2 ∨ mode = 3 → vel ≠ 0 →
    s.eng.ofPart (partOf ch) = [] → s.eng.stack (partOf ch) = [] → 1 ≤ partCap s.caddy s.eng (partOf ch) →
    (s.eng.seen (t : Rat)).freeSlots.head? = some i → i < 256 → QueueHasRoom s i →
    ∃ u, exec (.noteOn ch note vel t) s = .next u ∧ u.eng.occ i = some (newVoice ch note t mode [i] s) ∧
      u.eng.queue i = s.eng.queue i ++ [noteOnEntry ch note vel t 0 1 s] ∧ OnlySlot i s u ∧
      u.eng.cond.noteStacks = s.eng.cond.noteStacks.set ch.toNat [note.toNat] ∧ NoteOnLeaves ch note vel t 1 s u) ∧
  ∀ (ch : BitVec 4) (note vel : BitVec 7) (t mode i : Nat) (r : SlotRec) (st : List Nat) (s : State), MonoSounds ch t mode i r st s → vel ≠ 0 →
    note.toNat ∉ st → st.length < 16 →
    ∃ u, exec (.noteOn ch note vel t) s = .next u ∧
      u.eng.occ i = some { r with note := note.toNat, state := .held, stamp := stampAt t s.eng, order := s.eng.cond.order + 1 } ∧
      u.eng.queue i = s.eng.queue i ++ [⟨targetAt t s.eng, r.id, .retrig note.toNat vel.toNat (decide (mode = 2) || st.isEmpty)
        (nth none s.eng.cond.glide ch.toNat) r true⟩] ∧ OnlySlot i s u ∧
      u.eng.cond.noteStacks = s.eng.cond.noteStacks.set ch.toNat (st ++ [note.toNat]) ∧ NoteOnLeaves ch note vel t 0 s u

/-- What a note-off changes besides slots, queues and stacks. -/
def NoteOffLeaves (ch : BitVec 4) (t : Nat) (s u : State) : Prop :=
  u = { s with eng := { heardAs (0x80#8 ||| ch.setWidth 8) t s.eng with
    cond := { s.eng.cond with
      slots := u.eng.cond.slots, queues := u.eng.cond.queues, noteStacks := u.eng.cond.noteStacks, order := s.eng.cond.order + 1 }
    tempo := { s.eng.tempo with keys := u.eng.tempo.keys } } }

/-- The note-off of a mono or legato part: of the top key with keys below it, back to the new top with the part's latest velocity; of a key
below the top, only off the stack; of the last key, a release (R429, R437). -/
def MonoNoteOffsGoBack : Prop :=
  ∀ (ch : BitVec 4) (note vel : BitVec 7) (t mode i : Nat) (r : SlotRec) (l : List Nat) (s : State),
    (∀ k (st : List Nat), st = l ++ [k, note.toNat] → note.toNat ∉ l → k ≠ note.toNat → r.note = note.toNat → r.state = .held →
      MonoSounds ch t mode i r st s →
      ∃ u, exec (.noteOff ch note vel t) s = .next u ∧
        u.eng.occ i = some { r with note := k, state := .held, stamp := stampAt t s.eng, order := s.eng.cond.order + 1 } ∧
        u.eng.queue i = s.eng.queue i ++ [⟨targetAt t s.eng, r.id, .retrig k (nth 64 s.eng.cond.vel ch.toNat) (decide (mode = 2))
          (nth none s.eng.cond.glide ch.toNat) r false⟩] ∧ OnlySlot i s u ∧
        u.eng.cond.noteStacks = s.eng.cond.noteStacks.set ch.toNat (l ++ [k]) ∧ NoteOffLeaves ch t s u) ∧
    (∀ k (st : List Nat), st = note.toNat :: l ++ [k] → note.toNat ∉ l → k ≠ note.toNat → r.note = k → MonoSounds ch t mode i r st s →
      ∃ u, exec (.noteOff ch note vel t) s = .next u ∧ u.eng.cond.slots = s.eng.cond.slots ∧ u.eng.cond.queues = s.eng.cond.queues ∧
        u.eng.cond.noteStacks = s.eng.cond.noteStacks.set ch.toNat (l ++ [k]) ∧ NoteOffLeaves ch t s u) ∧
    (r.note = note.toNat → r.state = .held → r.latched = false → s.eng.ccOf (partOf ch) 64 < 64 → MonoSounds ch t mode i r [note.toNat] s →
      ∃ u, exec (.noteOff ch note vel t) s = .next u ∧
        u.eng.occ i = some { r with state := .released, stamp := stampAt t s.eng, order := s.eng.cond.order + 1, relVel := vel.toNat } ∧
        u.eng.queue i = s.eng.queue i ++ [⟨targetAt t s.eng, r.id, .release vel.toNat⟩] ∧ OnlySlot i s u ∧
        u.eng.cond.noteStacks = s.eng.cond.noteStacks.set ch.toNat [] ∧ NoteOffLeaves ch t s u)

/-- The fence at strobe `n` with a slack below 2: it sheds the voices that Table 10-4 ranks first, ⌈n/16⌉ of them and at least 4, or ⌈n/8⌉
and at least 8 with slack 0, and sets the ceiling to what is left; not again within four strobes (R444, R445). With slack 3 each 96th strobe
in a row raises the ceiling by 8 (R446). -/
def TheFenceSheds : Prop :=
  (∀ (t : Time) (p n k cnt q : Nat) (s : State), s.inService → s.eng.mode ≠ .load → nextStrobe s.eng = some t → s.eng.strobe.started = true →
    n = s.eng.strobe.n + 1 → s.eng.steep.p = some p → p ≤ n → s.eng.cond.fenceOn = true → (∀ x, s.eng.cond.lastShed = some x → x + 4 < n) →
    k = ((List.range 3).filter fun k => (s.eng.fifo.frames.find? (fun f => f.n == n + 1 + k && f.done)).isSome).length → k < 2 →
    (∀ f ∈ s.eng.fifo.frames, f.stuck = []) → s.eng.health.parity = [] → s.eng.health.news = [] → (∀ x ∈ s.eng.cond.ends, n < x.1) →
    s.eng.cond.slots.length = 256 → s.eng.cond.queues.length = 256 → (∀ x ∈ s.eng.occupied, x.2.group = [x.1] ∧ x.2.cls ≤ 3) →
    cnt = s.eng.occupied.length → 0 < cnt → q = (if k = 1 then max 4 ((cnt + 15) / 16) else max 8 ((cnt + 7) / 8)) →
    ∃ u, exec .frameStrobe s = .next u ∧ 0x1E ∈ u.eng.faults.pend.map (·.code) ∧ u.eng.occupied.length = cnt - min q cnt ∧
      (∀ i b, s.eng.occ i = some b → u.eng.occ i = some b ∧ u.eng.queue i = s.eng.queue i ∨
        nth Slot.empty u.eng.cond.slots i = ⟨none, u.eng.stamp + 1⟩ ∧ u.eng.queue i = s.eng.queue i ++ [⟨u.eng.target, b.id, .steal⟩]) ∧
      (∀ i a j b, s.eng.occ i = some a → s.eng.occ j = some b → u.eng.occ i = none → u.eng.occ j ≠ none → StealsFirst a b) ∧
      u.eng.cond = { s.eng.cond with
        slots := u.eng.cond.slots, queues := u.eng.cond.queues, lastShed := some n, ceiling := some (cnt - min q cnt), run96 := 0 }) ∧
  ∀ (base : Bool) (k : Nat) (e : Engine), e.cond.fenceOn = true → e.cond.ceiling = some k →
    (e.cond.run96 = 95 → fenceStep base 3 e = { e with cond := { e.cond with
      run96 := 0, ceiling := if e.cond.limit ≤ k + 8 then none else some (k + 8) } }) ∧
    (e.cond.run96 < 95 → fenceStep base 3 e = { e with cond := { e.cond with run96 := e.cond.run96 + 1 } })

/-- Writing to a queue that holds 16 entries (R291 to R293, Table 7-8): a pressure entry takes the place of the one that waits; else a
pressure entry that waits makes room, a start or a pressure is lost, a release removes the newest start, and is lost where there is none;
each overflow is counted and raises LINK_OVERRUN. A note whose NOTE_ON is lost has never started. -/
def FullQueuesLoseEntries : Prop :=
  (∀ (i : Nat) (en : Entry) (a b : List Entry) (e : Engine), i < e.cond.queues.length → en.counts = true →
    ((e.queue i).filter Entry.counts).length = 16 →
    (∀ x, e.queue i = a ++ x :: b → x.isPressure = true → (∀ y ∈ a, y.isPressure = false) →
      (en.isPressure = true → writeEntry i en e = e.setQueue i (a ++ b ++ [en])) ∧
      (en.isPressure = false → writeEntry i en e = overflowed (e.setQueue i (a ++ b ++ [en])))) ∧
    ((∀ y ∈ e.queue i, y.isPressure = false) →
      (en.isPressure = true → writeEntry i en e = overflowed e) ∧
      (∀ part note vel patch gl r, en.act = .noteOn part note vel patch 0 1 gl → e.occ i = some r → r.id = en.id → r.group = [i] →
        (writeEntry i en e).cond.queues = e.cond.queues ∧ (writeEntry i en e).occ i = none ∧
        (∀ j, j ≠ i → (writeEntry i en e).occ j = e.occ j) ∧
        (writeEntry i en e).cond.noteStacks = e.cond.noteStacks.set (part - 1) ((e.stack part).filter fun k => k != note) ∧
        (writeEntry i en e).faults = (e.raise 0x30).faults ∧ (writeEntry i en e).link.overrun = min 0xFFFF (e.link.overrun + 1)) ∧
      (en.isEnd = true → ∀ x, e.queue i = a ++ x :: b → x.isStart = true → (∀ y ∈ b, y.isStart = false) →
        (writeEntry i en e).queue i = a ++ b ++ [en] ∧ (writeEntry i en e).faults = (e.raise 0x30).faults ∧
        (writeEntry i en e).link.overrun = min 0xFFFF (e.link.overrun + 1)) ∧
      (en.isEnd = true → (∀ y ∈ e.queue i, y.isStart = false) → writeEntry i en e = overflowed e))) ∧
  (∀ e : Engine, overflowed e = { e.raise 0x30 with link := { e.link with overrun := min 0xFFFF (e.link.overrun + 1) } }) ∧
  ∀ (ch : BitVec 4) (note p : BitVec 7) (t i : Nat) (r : SlotRec) (w : Engine) (s : State), s.hears t → partOn s.caddy s.eng (partOf ch) = true →
    s.eng.occupied = [(i, r)] → r.part = partOf ch → r.note = note.toNat → r.state ≠ .released → r.group = [i] → i < s.eng.cond.queues.length →
    ((s.eng.queue i).filter Entry.counts).length = 16 → (∀ y ∈ s.eng.queue i, y.isPressure = false) →
    w = { s.eng with now := max s.eng.now (t : Rat) } →
    exec (.polyKeyPressure ch note p t) s = .next { s with eng := { heardAs (0xA0#8 ||| ch.setWidth 8) t (w.raise 0x30) with
      link := { s.eng.link with
        parser := ⟨some (0xA0#8 ||| ch.setWidth 8), none, [], false⟩, ref := some (t : Rat), overrun := min 0xFFFF (s.eng.link.overrun + 1) } } }

/-- Voice allocation past a free slot: stealing and the cap, restrikes, unison, mono and legato with the note stack, the fence, and full
queues. -/
def Obligations.VoicesAreAllocated : Prop :=
  NotesSteal ∧ NotesAreDiscarded ∧ NotesRestrike ∧ UnisonTakesAGroup ∧ MonoNotesShareAVoice ∧ MonoNoteOffsGoBack ∧ TheFenceSheds ∧
    FullQueuesLoseEntries

/-- POLYPHONIC_KEY_PRESSURE: a pressure entry for the voice of the note, in place of one that waits; without such a voice nothing. -/
def KeyPressureReachesTheVoice : Prop :=
  (∀ (ch : BitVec 4) (note p : BitVec 7) (t i : Nat) (r : SlotRec) (s : State), NoteSounds ch note t i r s →
    (s.eng.queue i).all (fun e => !e.isPressure) = true →
    exec (.polyKeyPressure ch note p t) s = .next { s with eng := { heardAs (0xA0#8 ||| ch.setWidth 8) t s.eng with
      cond := { s.eng.cond with
        queues := s.eng.cond.queues.set i (s.eng.queue i ++ [⟨targetAt t s.eng, r.id, .pressure p.toNat⟩]) } } }) ∧
    ∀ (ch : BitVec 4) (note p : BitVec 7) (t : Nat) (s : State), s.hears t →
      (∀ x ∈ s.eng.ofPart (partOf ch), x.2.note ≠ note.toNat ∨ x.2.state = .released) →
      exec (.polyKeyPressure ch note p t) s = .next { s with eng := heardAs (0xA0#8 ||| ch.setWidth 8) t s.eng }

/-- CHANNEL_PRESSURE and PITCH_BEND set the part's pressure and its 14-bit bend, LSB first. -/
def PressureAndBendAreRecorded : Prop :=
  ∀ (ch : BitVec 4) (a b : BitVec 7) (t : Nat) (r : PartRec) (s : State), s.hears t → partOn s.caddy s.eng (partOf ch) = true →
    r = s.eng.part (partOf ch) →
    exec (.channelPressure ch a t) s = .next { s with eng := (recorded ch { r with pressure := a.toNat }
      (heardAs (0xD0#8 ||| ch.setWidth 8) t s.eng)) } ∧
    exec (.pitchBend ch a b t) s = .next { s with eng := (recorded ch { r with bend := a.toNat + 128 * b.toNat }
      (heardAs (0xE0#8 ||| ch.setWidth 8) t s.eng)) }

/-- Pressures and the bend. -/
def Obligations.PressureAndBend : Prop := KeyPressureReachesTheVoice ∧ PressureAndBendAreRecorded

/-- PROGRAM_CHANGE: the bank is the latched one, or the default bank of STRAP_B before any Bank Select; with an invalid bank latched the
message does nothing (R284). The part takes the patch it resolves to, and its thermos word is written. -/
def Obligations.ProgramChangeSelectsThePatch : Prop :=
  ∀ (ch : BitVec 4) (p : BitVec 7) (t : Nat) (s : State), s.hears t → partOn s.caddy s.eng (partOf ch) = true →
    ch.toNat < s.eng.parts.length →
    ((s.eng.part (partOf ch)).latch = some none →
      exec (.programChange ch p t) s = .next { s with eng := heardAs (0xC0#8 ||| ch.setWidth 8) t s.eng }) ∧
    ∀ b, (s.eng.part (partOf ch)).latch = some (some b) ∨ (s.eng.part (partOf ch)).latch = none ∧ b = defaultBank s.eng.straps →
      ∃ u, exec (.programChange ch p t) s = .next u ∧
        (u.eng.part (partOf ch)).bank = b ∧ (u.eng.part (partOf ch)).patchNo = p.toNat ∧
        (u.eng.part (partOf ch)).patch = resolvePatch s.eng.image b p.toNat ∧
        (u.eng.part (partOf ch)).cc = (s.eng.part (partOf ch)).cc ∧ (u.eng.part (partOf ch)).bend = (s.eng.part (partOf ch)).bend ∧
        u.eng.due = s.eng.due ++ [(targetAt t s.eng, 0x10 + ch.toNat, BitVec.ofNat 16 (p.toNat + 128 * b))] ∧
        u = { s with eng := { heardAs (0xC0#8 ||| ch.setWidth 8) t s.eng with
          parts := s.eng.parts.set ch.toNat (u.eng.part (partOf ch))
          partChg := s.eng.partChg ++ [(targetAt t s.eng, ch.toNat, u.eng.part (partOf ch))]
          due := u.eng.due, cond := { s.eng.cond with noteStacks := u.eng.cond.noteStacks }
          tempo := { s.eng.tempo with keys := u.eng.tempo.keys, lanes := u.eng.tempo.lanes, writes := u.eng.tempo.writes } } }

/-- CC 120 empties the part's slots and its stack and lets go of every key that only a pedal kept; CC 121 puts its controllers back; CC 123
to 127 do what a note-off of velocity 64 does for the one note that is held, and nothing where none is (R288, R440, R551, Table 7-5). Each
counts as one event in the order of note-offs. -/
def Obligations.ChannelModeMessages : Prop :=
  ∀ (ch : BitVec 4) (v : BitVec 7) (t : Nat) (r : PartRec) (s : State), s.hears t → partOn s.caddy s.eng (partOf ch) = true →
    r = s.eng.part (partOf ch) →
    (s.eng.cond.slots.length = 256 → s.eng.cond.noteStacks.length = 16 → s.eng.tempo.keys.length = 16 →
      ∃ u, exec (.allSoundOff ch v t) s = .next u ∧
      (∀ i < 256, u.eng.occ i = (s.eng.occ i).filter fun q => decide (q.part ≠ partOf ch)) ∧ u.eng.stack (partOf ch) = [] ∧
      u.eng.keys (partOf ch) = ((s.eng.keys (partOf ch)).filter fun k => k.down || arpLatch s.caddy s.eng (partOf ch)).map
        (fun k => { k with sost := false }) ∧
      (∀ p, p < 16 → p ≠ ch.toNat → u.eng.keys (p + 1) = s.eng.keys (p + 1)) ∧
      u = { s with eng := { heardAs (0xB0#8 ||| ch.setWidth 8) t s.eng with
        link := u.eng.link, faults := u.eng.faults, pins := u.eng.pins
        cond := { s.eng.cond with
          slots := u.eng.cond.slots, queues := u.eng.cond.queues, noteStacks := u.eng.cond.noteStacks, order := s.eng.cond.order + 1 }
        tempo := { s.eng.tempo with keys := u.eng.tempo.keys, lanes := u.eng.tempo.lanes } } }) ∧
    (s.eng.occupied = [] → s.eng.keys (partOf ch) = [] → s.eng.tempo.keys.length = 16 →
      exec (.resetAllControllers ch v t) s = .next { s with eng := { controlled ch t s.eng { r with
          cc := ((((((r.cc.set 1 0).set 2 0).set 4 0).set 11 127).set 64 0).set 65 0).set 66 0
          porta := none, bend := 8192, pressure := 0, rpnMsb := 127, rpnLsb := 127 } with
        cond := { s.eng.cond with order := s.eng.cond.order + 1 } } }) ∧
    (∀ k (note : BitVec 7) (i : Nat) (q : SlotRec), NoteSounds ch note t i q s → s.eng.stack (partOf ch) = [] →
      ∃ w, exec (.noteOff ch note 64 t) s = .next w ∧ exec (.allNotesOff ch k v t) s = .next { w with eng := { w.eng with
        link := { w.eng.link with parser := ⟨some (0xB0#8 ||| ch.setWidth 8), none, [], false⟩ } } }) ∧
    ∀ k, s.eng.occupied = [] → s.eng.keys (partOf ch) = [] → s.eng.stack (partOf ch) = [] →
      exec (.allNotesOff ch k v t) s = .next { s with eng := { heardAs (0xB0#8 ||| ch.setWidth 8) t s.eng with
        cond := { s.eng.cond with order := s.eng.cond.order + 1 } } }

/-! ## Clocks -/

/-- Under AUTO a Timing Clock, START, CONTINUE or STOP becomes a write of the conductor for the apply tick of the next strobe; with the clock
off it does nothing (R520, Table 7-7). -/
def ClocksReachTheCounters : Prop :=
  ∀ (i : Instr) (b : Byte) (t : Nat) (w : CWrite) (s : State), realTimeMessage i = some (b, t) → s.quiet → midiDue t s.eng = true →
    s.eng.served = true → (b, w) ∈ [(0xF8#8, CWrite.clock), (0xFA#8, .start), (0xFB#8, .resume), (0xFC#8, .stop)] →
    exec i s = .next { s with eng := { s.eng with
      now := max s.eng.now (t : Rat), evq := [], link := { s.eng.link with ref := some (t : Rat) }
      tempo := if slotE 1 0 (sysSlot s.caddy s.eng.image 0x004) = 0 then s.eng.tempo
        else { s.eng.tempo with writes := s.eng.tempo.writes ++ [(stampAt t s.eng + 1, w)] } } }

/-- EXTERNAL_MODE_EXIT: after 300 ms of time without a clock the transport runs on at the tempo in force, which T04 takes, and what the
clocks left is gone (R540). That the 300 ms count from the later of the last clock and the last Start or Continue is the model's choice (log
34). -/
def ExternalModeEnds : Prop :=
  ∀ (t : Nat) (s : State), s.running = true → s.calm → s.eng.tempo.ext = true → s.eng.tempo.ctrs.length = 16 →
    s.eng.tempo.quietAt + msT 300 ≤ max s.eng.now (t : Rat) →
    ∃ u, exec (.externalModeExit t) s = .next u ∧ (u.eng.ctr 0) = { s.eng.ctr 0 with run := true } ∧ (∀ k, 0 < k → u.eng.ctr k = s.eng.ctr k) ∧
      u = { s with eng := { s.eng with
        now := max s.eng.now (t : Rat), due := s.eng.due ++ [(targetAt t s.eng, 4, BitVec.ofNat 16 s.eng.tempo.tempo)]
        tempo := { s.eng.tempo with
          ctrs := u.eng.tempo.ctrs, ext := false, running := true, k := none, waiting := false, catchTo := none, clks := [], clkRun := 0
          clkLast := none } } }

/-- The clock messages of a port, and the end of external mode. -/
def Obligations.ClocksAndExternalMode : Prop := ClocksReachTheCounters ∧ ExternalModeEnds

/-- One step of a counter: it counts down, underflow reloads it and stops it where the reload is 0, and a count equal to a compare value
other than 0 is a match (R517). -/
def CounterStep : Prop :=
  ∀ c : Ctr, c.cnt < 0x1000000 →
    (1 < c.cnt → ctrStep c = ({ c with cnt := c.cnt - 1 }, false, decide (c.cnt - 1 = c.cmp ∧ c.cmp ≠ 0))) ∧
    (c.cnt = 1 → ctrStep c = ({ c with cnt := c.rld, run := c.run && decide (c.rld ≠ 0) }, true, decide (c.rld = c.cmp ∧ c.cmp ≠ 0)))

/-- COUNTER_TICK in full service: the ticks go on by one and every running counter counts down by one, where the counters that run are ungated
and without a master, none underflows, none has a compare value, no conductor write waits, no pulse is owed and no entry is an input
(R515 to R518). -/
def CounterTickCounts : Prop :=
  ∀ (pins : BitVec 16) (i : Nat) (s : State), s.inService → s.eng.mode ≠ .load → s.eng.strobe.started = true → i = s.eng.strobe.tick → i < 4 →
    (s.eng.steep.f = some s.eng.strobe.n → i ≠ 0) → s.eng.tempo.catchTo = none → s.eng.tempo.writes = [] →
    (∀ k < 16, gpInput s.caddy s.eng k = false) → s.eng.tempo.ctrs.length = 16 →
    (∀ x ∈ s.eng.tempo.ctrs, x.run = true → x.gate = 0 ∧ x.master = none ∧ x.cmp = 0 ∧ 1 < x.cnt ∧ x.cnt < 0x1000000) →
    exec (.counterTick pins) s = .next { s with eng := { s.eng with
      now := max s.eng.now (tickAt s.eng i), evq := [], strobe := { s.eng.strobe with tick := i + 1 }
      pins := if s.eng.mode = .bench ∧ 1 ≤ i then { s.eng.pins with gp := s.eng.pins.gp.set 15 .low } else s.eng.pins
      tempo := { s.eng.tempo with
        ticks := s.eng.tempo.ticks + 1
        ctrs := s.eng.tempo.ctrs.map fun x => if x.run = true then { x with cnt := x.cnt - 1 } else x } } }

/-- The counters at a tick. -/
def Obligations.CountersCount : Prop := CounterStep ∧ CounterTickCounts

/-! ## Faults and the transmitter -/

/-- Raising a fault: its record's count goes up to 255 at most, a code that is not pending joins the records, after those of earlier raises and
among those of the same moment in ascending code; a retained code becomes the last one, unless one of a greater code was raised at the same
moment; from F on the bindings see it, before it is kept once in first-raise order; before strobe 0 it drives FAULT_N at once (R299, R863, R865,
R866, R868). A moment is an instant, counted on by each command that bears none (log 96). -/
def RaisingRecordsTheFault : Prop :=
  ∀ (k : Nat) (e : Engine),
    (∀ a b r, e.faults.pend = a ++ r :: b → r.code = k → (∀ x ∈ a, x.code ≠ k) → (∀ x ∈ b, x.code ≠ k) →
      (e.raise k).faults.pend = a ++ { r with count := min 255 (r.count + 1) } :: b) ∧
    (∀ l m, e.faults.pend = l ++ m → (∀ x ∈ e.faults.pend, x.code ≠ k) → (∀ x ∈ l, x.made = e.moment → x.code < k) →
      (∀ x ∈ m, x.made = e.moment ∧ k < x.code) → (e.raise k).faults.pend = l ++ ⟨k, 1, e.moment⟩ :: m) ∧
    (faultRetained k = false → (e.raise k).faults.last = e.faults.last ∧ (e.raise k).faults.dirty = e.faults.dirty) ∧
    (faultRetained k = true → (e.raise k).faults.dirty = true ∧
      ((∀ c, e.faults.last = some (c, e.moment) → c ≤ k) → (e.raise k).faults.last = some (k, e.moment)) ∧
      ∀ c, e.faults.last = some (c, e.moment) → k < c → (e.raise k).faults.last = some (c, e.moment)) ∧
    (e.served = true → (e.raise k).faults.early = e.faults.early ∧
      ((∀ c, Ev.fault c ∈ e.evq → c ≤ k) → (e.raise k).evq = e.evq ++ [.fault k])) ∧
    (e.served = false → (e.raise k).evq = e.evq ∧ ((∃ x ∈ e.faults.early, x.1 = k) → (e.raise k).faults.early = e.faults.early) ∧
      ((∀ x ∈ e.faults.early, x.1 ≠ k ∧ (x.2 = e.moment → x.1 < k)) → (e.raise k).faults.early = e.faults.early ++ [(k, e.moment)])) ∧
    (e.raise k).pins.faultLow = (e.pins.faultLow || !e.strobe.started && (faultClassL k || faultClassC k)) ∧
    e.raise k = { e with faults := (e.raise k).faults, evq := (e.raise k).evq, pins := { e.pins with faultLow := (e.raise k).pins.faultLow } }

/-- What a command that acts at the instant of a strobe leaves to that strobe: FAULT_N follows the fault conditions, and T05 takes the
retained code with the check word of the record, once B4 is over and outside Load mode; away from a strobe nothing (R864, R868). -/
def StrobesReportTheFaults : Prop :=
  (∀ s : State, s.running = true → s.eng.strobe.started = true → s.eng.now = s.eng.strobe.last →
    s.strobeTail.eng = { s.eng with
      faults := { s.eng.faults with dirty := s.strobeTail.eng.faults.dirty }
      pins := { s.eng.pins with faultLow := s.eng.faults.latched || s.eng.faults.classC.any (conditionHolds s.eng) } } ∧
    s.strobeTail = { s with eng := s.strobeTail.eng, thermos := s.strobeTail.thermos } ∧
    (∀ x, s.eng.faults.last = some x → s.eng.faults.dirty = true → s.eng.steep.b4 = true → s.eng.mode ≠ .load →
      s.strobeTail.thermos.words = s.thermos.words.set 5 (BitVec.ofNat 16 x.1) ∧ s.strobeTail.thermos.hold = s.thermos.hold ∧
      s.strobeTail.thermos.tc = thermosCrc s.strobeTail.thermos.words ∧ s.strobeTail.eng.faults.dirty = false) ∧
    (s.eng.faults.last = none ∨ s.eng.faults.dirty = false ∨ s.eng.steep.b4 = false ∨ s.eng.mode = .load →
      s.strobeTail.thermos = s.thermos ∧ s.strobeTail.eng.faults.dirty = s.eng.faults.dirty)) ∧
  ∀ s : State, s.running = false ∨ s.eng.strobe.started = false ∨ s.eng.now ≠ s.eng.strobe.last → s.strobeTail = s

/-- A fault is raised, and reaches FAULT_N and T05. -/
def Obligations.RaisingAFault : Prop := RaisingRecordsTheFault ∧ StrobesReportTheFaults

/-- TXD is idle at the last strobe, with bit time `tr`. -/
def TxIdle (tr : Time) (s : State) : Prop :=
  s.running = true ∧ s.calm ∧ s.eng.strobe.started = true ∧ s.eng.link.txUntil ≤ s.eng.strobe.last ∧ s.eng.link.tr = some tr

/-- The link after the frame `bytes` starts at the last strobe. -/
def sending (bytes : List Byte) (tr : Time) (l : Link) (last : Time) : Link :=
  { l with txBytes := bytes, txUntil := last + 10 * tr * (bytes.length : Rat) }

/-- The status frames: the records of Table 7-10 in their order, then up to 16 FAULT records, which leave the queue; SEQ goes on with every
frame (R294 to R301). The acknowledgement starts at a strobe at or after the end of its frame's processing (R744); while TXD carries
something nothing starts. That TXD is busy from the strobe itself is the model's choice (log 105). -/
def FramesStart : Prop :=
  (∀ (tr : Time) (s : State) (fr : List Byte), TxIdle tr s → fr = (s.eng.faults.pend.take 16).flatMap recFault →
    ((s.eng.mode = .play ∧ s.eng.link.regularDue = true ∨ s.eng.mode = .bench) →
      exec .regularFrame s = .next { s with eng := { s.eng with
        faults := { s.eng.faults with pend := s.eng.faults.pend.drop 16 }
        link := { sending (statusFrame s.eng.link.seq (recFrame s.eng ++ recState s.eng ++ recVoices s.eng ++ recLink s.eng ++ recDials s.eng ++
          recSense s.eng ++ recLevels s.eng ++ recCal s.eng ++ fr)) tr s.eng.link s.eng.strobe.last with
            seq := s.eng.link.seq + 1#8, regularDue := false, peak := List.replicate 4 0#32 } } }) ∧
    (s.eng.mode = .play → s.eng.link.regularDue = false → s.eng.faults.pend ≠ [] →
      exec .faultFrame s = .next { s with eng := { s.eng with
        faults := { s.eng.faults with pend := s.eng.faults.pend.drop 16 }
        link := { sending (statusFrame s.eng.link.seq (recFrame s.eng ++ recState s.eng ++ fr)) tr s.eng.link s.eng.strobe.last with
          seq := s.eng.link.seq + 1#8 } } }) ∧
    (s.eng.mode = .load → s.eng.load.ackDue = none ∨ s.eng.strobe.last < s.eng.load.ackFrom →
      s.eng.link.loadDue = true ∨ s.eng.pins.ready = true ∧ s.eng.faults.pend ≠ [] →
      exec .statusLoadFrame s = .next { s with eng := { s.eng with
        faults := { s.eng.faults with pend := s.eng.faults.pend.drop 16 }
        link := { sending (statusFrame s.eng.link.seq (recFrame s.eng ++ recState s.eng ++ fr)) tr s.eng.link s.eng.strobe.last with
          seq := s.eng.link.seq + 1#8, loadDue := false } } }) ∧
    ∀ a, s.eng.load.ackDue = some a → s.eng.load.ackFrom ≤ s.eng.strobe.last →
      exec .acknowledgement s = .next { s with eng := { s.eng with
        load := { s.eng.load with ackDue := none, ackStop := s.eng.strobe.last + 10 * tr * (a.length : Rat) - tr }
        link := sending a tr s.eng.link s.eng.strobe.last } }) ∧
  ∀ s : State, s.calm → s.eng.strobe.started = false ∨ s.eng.strobe.last < s.eng.link.txUntil ∨ s.eng.link.tr = none →
    exec .regularFrame s = .next s ∧ exec .faultFrame s = .next s ∧ exec .statusLoadFrame s = .next s ∧ exec .acknowledgement s = .next s

/-- The bytes of a number, the least significant first. -/
def bytesOf (k x : Nat) : List Byte := (List.range k).map fun i => BitVec.ofNat 8 (x / 256 ^ i)

/-- What the records contain (R297, R884, R887, Table 7-10). -/
def RecordsSayTheState : Prop :=
  ∀ e : Engine,
    recFrame e = 0x01#8 :: bytesOf 6 e.strobe.n ∧
    (e.modePins < 8 → e.straps.a < 16 → e.straps.b < 16 → e.straps.c < 16 → e.straps.d < 16 →
      ∃ b0 b1 b2 b3 : Byte, recState e = [0x02#8, b0, b1, b2, b3] ∧ b0.toNat % 8 = e.modePins ∧ b0.getLsbD 3 = e.pins.ready ∧
        b0.getLsbD 4 = decide (e.kettle.fam = .f44) ∧ b0.getLsbD 5 = decide (e.kettle.relock ≠ .none ∧ e.kettle.recovery = false) ∧
        b0.getLsbD 6 = e.input.locked ∧ b0.getLsbD 7 = decide (4 ≤ e.straps.b) ∧
        b1.toNat = (if e.input.locked = true then (if e.input.row < 15 then e.input.row else 0xFE) else 0xFF) ∧
        b2.toNat = e.straps.a + 16 * e.straps.b ∧ b3.toNat = e.straps.c + 16 * e.straps.d) ∧
    (∀ r : FaultRec, recFault r = [0x03#8, BitVec.ofNat 8 r.code, BitVec.ofNat 8 r.count]) ∧
    (∀ k p, e.steep.p = some p → p ≤ e.strobe.n → e.fifo.counts.find? (fun x => x.1 == e.strobe.n) = some (e.strobe.n, k) →
      recVoices e = 0x04#8 :: (bytesOf 2 k ++ bytesOf 2 e.limitNow ++
        [BitVec.ofNat 8 (e.health.cells.filter fun x => x.role == .spare).length, 0#8])) ∧
    recLink e = 0x05#8 :: (bytesOf 2 e.link.framing ++ bytesOf 2 e.link.syncFail ++ bytesOf 2 e.link.partialCount ++ bytesOf 2 e.link.overrun) ∧
    (e.dials.chans.length = 16 → ∃ w : W32, recDials e = 0x06#8 :: bytesOf 4 w.toNat ∧
      (∀ i < 13, w.getLsbD i = (e.dials.chan i).ovr ∧ w.getLsbD (16 + i) = (e.dials.chan i).unr) ∧
      ∀ i, 13 ≤ i → i < 16 → w.getLsbD i = false ∧ w.getLsbD (16 + i) = false) ∧
    recSense e = 0x07#8 :: (bytesOf 2 ((e.dials.tj.map fun t => (BitVec.ofInt 16 t).toNat).getD 0x8000) ++ bytesOf 2 (e.dials.vbat.getD 0xFFFF)) ∧
    (e.link.peak.length = 4 → ∃ l, recLevels e = 0x08#8 :: l ∧ l.length = 4 ∧ ∀ i < 4, ∀ p, p = f32Rat (fAbs (nth 0#32 e.link.peak i)) →
      (p ≤ 0 → nth 0#8 l i = 255#8) ∧ (1 ≤ p → nth 0#8 l i = 0#8)) ∧
    (e.out.chans.length = 4 → ∃ b : Byte, recCal e = [0x09#8, b] ∧ b.toNat < 16 ∧ ∀ i < 4, b.getLsbD i = (e.chan i).request)

/-- R294, R295: a frame is 0xA5, the number of record bytes, SEQ, the records, and a check byte which leaves the CRC-8 of all but the first
byte at 0. -/
def FramesAreChecked : Prop :=
  ∀ (seq : Byte) (l : List Byte), ∃ c : Byte, statusFrame seq l = [0xA5#8, BitVec.ofNat 8 l.length, seq] ++ l ++ [c] ∧
    crc8 ([BitVec.ofNat 8 l.length, seq] ++ l ++ [c]) = 0#8

/-- Status frames and acknowledgements, and what they contain. -/
def Obligations.StatusFramesAreSent : Prop := FramesStart ∧ RecordsSayTheState ∧ FramesAreChecked

/-! ## The program input (08) -/

/-- INPUT_LOCK: a run of eight candidates at a rate of Table 4-6 locks the input; at another rate it raises INPUT_RATE once, and a new run
is sought (R325 to R329). Load mode ignores the input (R738). That the run starts from the decision instant of the third error, or from the
end of a run without lock, is log 61, that a lock ends the episode of KETTLE_REF_INVALID is log 43, and with a lock, or without the crystal,
the command changes nothing (log 8). -/
def InputLocks : Prop :=
  (∀ (edges : List BckEdge) (r : RunResult) (s : State), s.quiet → s.eng.kettle.crystal = true → s.eng.steep.b1 = true →
    s.eng.mode ≠ .load → s.eng.input.locked = false → (∀ x ∈ edges, s.eng.input.runFrom ≤ x.t) →
    runOf (inFmt s.eng.straps.c) edges = some r →
    (rateOk (inFmt s.eng.straps.c) r.c r.pm = true → ∃ u, exec (.inputLock edges) s = .next u ∧
      u.eng.input = { s.eng.input with
        locked := true, row := rateRow r.pm, c := r.c, pm := r.pm, pref := prefOf r.pm, periods := r.periods, start := some r.last
        expect := (r.last.t : Rat), ws := r.last.ws, prevGood := true, errRun := 0, hold := List.replicate 4 0#24, rateRaised := false } ∧
      u.eng.rs.isSome = true ∧ u.eng.gin.next.isSome = true ∧ u.eng.gin.words = s.eng.gin.words ∧
      (policy s.eng ≠ .wclk → u.eng.kettle.refRaised = false ∧ u.eng.faults = s.eng.faults) ∧
      u = { s with eng := { s.eng with
        now := max s.eng.now (r.last.t : Rat), evq := [], input := u.eng.input, rs := u.eng.rs, rsOld := u.eng.rsOld
        gin := { s.eng.gin with next := u.eng.gin.next }, kettle := u.eng.kettle, faults := u.eng.faults, pins := u.eng.pins } }) ∧
    (rateOk (inFmt s.eng.straps.c) r.c r.pm = false →
      exec (.inputLock edges) s = .next (s.acted { (s.eng.at r.last.t).raiseIf (!s.eng.input.rateRaised) 0x2B with
        input := { s.eng.input with rateRaised := true, runFrom := r.last.t } }))) ∧
  ∀ (edges : List BckEdge) (s : State), s.calm → s.eng.kettle.crystal = false ∨ s.eng.mode = .load ∨ s.eng.input.locked = true →
    exec (.inputLock edges) s = .next s

/-- DECISION_INSTANT: the frame is delivered and judged, whatever the loop does, while the crystal serves; a missing frame repeats the held
samples with INPUT_FRAMING alone (log 61), and the third error in a row unlocks the input, which mutes the program (R330 to R343, R129). -/
def InputFramesAreJudged : Prop :=
  ∀ (edges : List BckEdge) (t : Nat) (d : Decision) (s : State), s.quiet → s.eng.kettle.crystal = true → s.eng.input.locked = true →
    d = decideFrame s.caddy s.eng edges t →
    (s.eng.input.start = none → d.samples = s.eng.input.hold ∧ d.goodStart = none ∧ d.input.errRun = s.eng.input.errRun + 1 ∧
      d.unlock = decide (2 ≤ s.eng.input.errRun) ∧ d.faults = if 2 ≤ s.eng.input.errRun then [0x28, 0x29] else [0x29]) ∧
    ∃ u, exec (.decisionInstant edges t) s = .next u ∧
      (d.unlock = false → u.eng.input = d.input ∧ u.eng.gin = s.eng.gin ∧
        (s.eng.kettle.settled = false → u.eng.rs = s.eng.rs.map (fun r => r.push d.samples d.frameInst))) ∧
      (d.unlock = true → u.eng.input = { d.input with locked := false, row := 15, start := none, errRun := 0, runFrom := t + 1 } ∧
        u.eng.gin.slide.v1 = 0 ∧ u.eng.gin.next = none ∧ u.eng.gin.words = s.eng.gin.words) ∧
      u = { s with eng := { s.eng with
        now := max s.eng.now (t : Rat), free := u.eng.free, evq := [], input := u.eng.input, rs := u.eng.rs, gin := u.eng.gin
        kettle := u.eng.kettle, faults := u.eng.faults, pins := u.eng.pins } }

/-- The program input locks, delivers its frames and unlocks. -/
def Obligations.InputLocksAndFrames : Prop := InputLocks ∧ InputFramesAreJudged

/-! ## The output modulator (15) -/

/-- A channel modulates on the fine grid with nothing pending: not suspended, not open-loop, its period one of the eight of the frame. -/
def Modulates (i : Fin 4) (x : Chan) (s : State) : Prop :=
  s.quiet ∧ s.clocked ∧ s.eng.strobe.started = true ∧ s.eng.kettle.locked = true ∧ s.eng.kettle.carrier = false ∧ s.eng.kettle.clamp = false ∧
    s.eng.out.held = false ∧ x = s.eng.chan i.val ∧
    x.modulating = true ∧ x.periods < 8 ∧ x.trim = none ∧ x.coarse = false ∧ x.opened = false ∧ x.fixed = false ∧ x.swap = false ∧
    x.fine = false ∧ x.resume = false ∧ x.atLimit < 959

/-- SWITCHING_PERIOD on the fine grid: position and width of R647 and R648, the shaper's error, the element delays of R651, and the
correction of R660 from what was measured of the period before (R659). -/
def PeriodsPlaceTheirEdges : Prop :=
  ∀ (i : Fin 4) (rises falls : List Nat) (x : Chan) (r v w : Int) (s : State), Modulates i x s → x.line.parityOk = true →
    r = ((16000 : Rat) - 14000 * f32Rat x.x + 1 / 2).floor →
    v = (((32000 : Rat) + 28000 * f32Rat x.x) * 65536 + 1 / 2).floor + x.iB + 2 * x.e1 - x.e2 →
    w = max 3072 (min (62400 - r) ((v + 32768).fdiv 65536)) →
    ∃ u y, exec (.switchingPeriod i rises falls []) s = .next u ∧ y = u.eng.chan i.val ∧
      y.r = r ∧ y.w = 65536 * w ∧ y.e1 = max (-65536) (min 65536 (v - 65536 * w)) ∧ y.e2 = x.e1 ∧ y.periods = x.periods + 1 ∧ y.iA = x.iB ∧
      y.trans = x.trans + rises.length + falls.length ∧
      y.tapR = (if r % 32 = 0 then 0 else tapCode (nth 0#7 x.line.regs (r % 32).toNat)) ∧
      y.tapF = (if (r + w) % 32 = 0 then 0 else tapCode (nth 0#7 x.line.regs ((r + w) % 32).toNat)) ∧
      y.riseAt = (rises.find? fun a : Nat => decide (r < (a : Int)) && decide ((a : Int) < r + w)).map (· / 32) ∧
      y.fallAt = (falls.find? fun a : Nat => decide (r + w < (a : Int))).map (· / 32) ∧
      (∀ a b : Nat, x.riseAt = some a → (x.fallAt = some b ∨ x.fallAt = none ∧
          ∃ k, falls.find? (fun a : Nat => decide ((a : Int) < r)) = some k ∧ b = 2000 + k / 32) →
        y.iB = max (-134217728) (min 134217728 (x.iB + (x.w - x.iA - 2097152 * ((b : Int) - (a : Int)) + 8).fdiv 16))) ∧
      (x.riseAt = none ∨ x.fallAt = none ∧ (∀ k ∈ falls, r ≤ ((k : Nat) : Int)) → y.iB = x.iB) ∧
      (∀ j, j ≠ i.val → u.eng.chan j = s.eng.chan j) ∧
      u = { s with eng := { s.eng with
        now := max s.eng.now (s.eng.strobe.last + loopFrame s.eng.kettle * ((x.periods + 1 : Nat) : Rat) / 8), evq := [],
        out := { s.eng.out with chans := u.eng.out.chans } } }

/-- R655: an edge that reads a tap code register of wrong parity is not delayed, its line has failed, and the channel is on the coarse grid
from the next period on; past the eighth period of a frame, or on a channel that does not modulate, a period changes nothing. -/
def BadTapsMakeTheChannelCoarse : Prop :=
  (∀ (i : Fin 4) (rises falls : List Nat) (flips : TapFlips) (x y : Chan) (r : Int) (s : State), Modulates i x s → y = x.flip flips →
    r = ((16000 : Rat) - 14000 * f32Rat x.x + 1 / 2).floor → r % 32 ≠ 0 → tapParity (nth 0#7 y.line.regs (r % 32).toNat) = false →
    ∃ u z, exec (.switchingPeriod i rises falls flips) s = .next u ∧ z = u.eng.chan i.val ∧ z.r = r ∧ z.tapR = 0 ∧ z.coarse = true ∧
      z.cycle = true ∧ z.activeOk = false ∧ z.e1 = 0 ∧ z.e2 = 0 ∧ z.lines = updAt (fun l => { l with passed := false }) x.active y.lines ∧
      u.eng.faults = s.eng.faults ∧ (∀ j, j ≠ i.val → u.eng.chan j = s.eng.chan j)) ∧
  ∀ (i : Fin 4) (rises falls : List Nat) (flips : TapFlips) (s : State), s.calm →
    (s.eng.chan i.val).modulating = false ∨ s.eng.kettle.carrier = false ∧ 8 ≤ (s.eng.chan i.val).periods ∨ s.eng.kettle.down.isSome = true →
    exec (.switchingPeriod i rises falls flips) s = .next s

/-- On the carrier, between tRT and tLOCK, the duty is 50 % and a period follows the one before it, 2000 periods of a timebase that stays
within its bounds (R143, R147, R661); where the timebase stands within them is a free value (log 97). -/
def CarrierPeriods : Prop :=
  ∀ (i : Fin 4) (rises falls : List Nat) (t : Time) (x : Chan) (s : State), s.quiet → s.clocked → s.eng.strobe.started = true →
    s.eng.kettle.locked = false → s.eng.kettle.carrier = true → s.eng.kettle.clamp = true → s.eng.out.held = true → x = s.eng.chan i.val →
    x.modulating = true → nextStrobe s.eng = some t → x.endAt < t → x.atLimit < 960 →
    ∃ u y, exec (.switchingPeriod i rises falls []) s = .next u ∧ y = u.eng.chan i.val ∧ y.r = 16000 ∧ y.w = 32000 * 65536 ∧
      (2000 * 393216000 / 1600000000 : Rat) ≤ y.endAt - x.endAt ∧ y.endAt - x.endAt ≤ 2000 * 393216000 / 1350000000 ∧
      y.periods = x.periods + 1 ∧ y.trans = x.trans ∧ y.atLimit = x.atLimit ∧ y.tapR = 0 ∧ y.tapF = 0 ∧
      (∀ j, j ≠ i.val → u.eng.chan j = s.eng.chan j) ∧
      u = { s with eng := { s.eng with
        now := max s.eng.now y.endAt, free := s.eng.free + 1, evq := [], out := { s.eng.out with chans := u.eng.out.chans } } }

/-- One switching period. -/
def Obligations.SwitchingPeriodPlacesItsEdges : Prop := PeriodsPlaceTheirEdges ∧ BadTapsMakeTheChannelCoarse ∧ CarrierPeriods

/-- ROUTINE_CYCLE and LINE_CALIBRATION_COMPLETE (R653, Table 15-3): the cycle begins at its strobe with the check of the active line, which
fails on wrong parity or where the reference delay is more than two elements off and puts the channel on the coarse grid; a shadow line that
passes takes over, one that fails raises DLY_SHADOW, and with both lines failed the channel is silent with DLY_FAIL. A line that passes ends
coarse mode only while the loop is locked (R650). Where both lines are calibrated the active one comes first, which is the model's reading
(log 41). The cycles of a channel with no line that passed (R657) are left out here. -/
def LinesAreRecalibrated : Prop :=
  (∀ (i : Fin 4) (flips : TapFlips) (dev : Rat) (ok : Bool) (x y : Chan) (s : State), s.quiet → s.clocked → s.eng.strobe.started = true →
    x = s.eng.chan i.val → y = x.flip flips → calibratedChan s.eng i.val = true → routineDue s.eng.kettle.fam i.val s.eng.strobe.n = true →
    s.eng.out.chans.length = 4 → x.cycle = false → x.lines.any (·.passed) = true →
    ok = (y.line.parityOk && decide (-2 ≤ dev) && decide (dev ≤ 2)) →
    ∃ w : Engine, exec (.routineCycle i ⟨flips, dev⟩) s = .next (s.actedAt w) ∧
      (w.chan i.val).cycle = true ∧ (w.chan i.val).both = false ∧ (w.chan i.val).activeOk = ok ∧ (w.chan i.val).coarse = (x.coarse || !ok) ∧
      (w.chan i.val).lines = (if ok = true then y.lines else updAt (fun l => { l with passed := false }) x.active y.lines) ∧
      (∀ j, j ≠ i.val → w.chan j = s.eng.chan j) ∧ w = { s.eng with out := { s.eng.out with chans := w.out.chans } }) ∧
  (∀ (i : Fin 4) (cal : LineCal) (ok : Bool) (x : Chan) (s : State), s.quiet → s.clocked → x = s.eng.chan i.val → x.cycle = true →
    x.both = false → ok = (calLine cal).passed →
    ∃ u, exec (.lineCalibrationComplete i cal.codes ⟨cal.flips, cal.dev⟩) s = .next u ∧
      (u.eng.chan i.val).cycle = false ∧ (u.eng.chan i.val).lines = x.lines.set (1 - x.active) (calLine cal) ∧
      (u.eng.chan i.val).swap = (x.swap || ok) ∧ (x.activeOk = false → ok = true → (u.eng.chan i.val).fine = s.eng.kettle.locked) ∧
      (x.activeOk = false → ok = false → (u.eng.chan i.val).failEp = true ∧ (u.eng.chan i.val).gD.v1 = 0) ∧
      u.eng.faults = (s.eng.later.raiseAll (only (x.activeOk && !ok && !x.shadowEp) 0x22 ++ only (!x.activeOk && ok && (!x.failEp || x.pair)) 0x23 ++
        only (!x.activeOk && !ok && !x.failEp) 0x21)).faults ∧
      (∀ j, j ≠ i.val → u.eng.chan j = s.eng.chan j) ∧
      u = { s with eng := { s.eng with
        evq := [], faults := u.eng.faults, pins := u.eng.pins, out := { s.eng.out with chans := u.eng.out.chans } } }) ∧
  ∀ (i : Fin 4) (cal : LineCal) (ok : Bool) (x : Chan) (s : State), s.quiet → s.clocked → x = s.eng.chan i.val → x.cycle = true →
    x.both = true → ok = (calLine cal).passed →
    ∃ u, exec (.lineCalibrationComplete i cal.codes ⟨cal.flips, cal.dev⟩) s = .next u ∧
      u.eng.chan i.val = { x with
        lines := x.lines.set x.active (calLine cal), both := false, activeOk := ok, fine := x.fine || ok && s.eng.kettle.locked, failEp := x.failEp && !ok } ∧
      (∀ j, j ≠ i.val → u.eng.chan j = s.eng.chan j) ∧
      u = { s with eng := { s.eng.later with evq := [], out := { s.eng.out with chans := u.eng.out.chans } } }

/-- Trims (R666 to R668, R885, Table 15-5): a request is served in silence, the channel ramps down over 2 ms, and up again 1 ms after gQ has
reached 0; an offset inside ±25.0 mV is the new trim and ends the request, one at an end of the range leaves the former trim and raises
CMP_FAIL. The abort of a trim whose silence ends (R667) is left out here. -/
def TrimsAreServed : Prop :=
  (∀ (i : Fin 4) (x : Chan) (s : State), s.quiet → s.clocked → x = s.eng.chan i.val → trimDue s.eng x = true →
    ∃ w : Engine, exec (.trimStart i) s = .next (s.actedAt w) ∧ w.chan i.val = { x with
        trim := some s.eng.strobe.n, trimOver := false, gQ := (w.chan i.val).gQ } ∧
      (w.chan i.val).gQ.v1 = 0 ∧ (w.chan i.val).gQ.n = framesIn2ms s.eng.kettle.fam ∧
      (∀ j, j ≠ i.val → w.chan j = s.eng.chan j) ∧
      w = { s.eng with out := { s.eng.out with chans := w.out.chans } }) ∧
  (∀ (i : Fin 4) (off : Int) (x : Chan) (k : Nat) (s : State), s.quiet → s.clocked → x = s.eng.chan i.val → x.trim = some k → x.trimOver = false →
    s.eng.strobe.n = k + framesMs s.eng.kettle.fam 2 + framesMs s.eng.kettle.fam 1 → -25000 < off → off < 25000 →
    ∃ w : Engine, exec (.trimEnd i off) s = .next (s.actedAt w) ∧ w.chan i.val = { x with
        trimOver := true, gQ := (w.chan i.val).gQ, request := false, offset := off, trimDone := some s.eng.strobe.n
        trimSpan := framesOf s.eng.kettle.fam 3600, tref := none, trimFail := none, resume := x.opened } ∧
      (w.chan i.val).gQ.v1 = 1 ∧ (w.chan i.val).gQ.n = framesIn2ms s.eng.kettle.fam ∧
      (∀ j, j ≠ i.val → w.chan j = s.eng.chan j) ∧
      w = { s.eng with out := { s.eng.out with chans := w.out.chans } }) ∧
  (∀ (i : Fin 4) (off : Int) (x : Chan) (k : Nat) (s : State), s.quiet → s.clocked → x = s.eng.chan i.val → x.trim = some k → x.trimOver = false →
    s.eng.strobe.n = k + framesMs s.eng.kettle.fam 2 + framesMs s.eng.kettle.fam 1 → off ≤ -25000 ∨ 25000 ≤ off →
    ∃ w : Engine, exec (.trimEnd i off) s = .next (s.actedAt w) ∧ (w.chan i.val).trimOver = true ∧ (w.chan i.val).opened = true ∧
      (w.chan i.val).trimFail = some s.eng.strobe.last ∧ (w.chan i.val).trimDone = x.trimDone ∧ (w.chan i.val).offset = x.offset ∧
      (∀ j, j ≠ i.val → w.chan j = s.eng.chan j) ∧ w = { s.eng.raise 0x20 with out := { s.eng.out with chans := w.out.chans } }) ∧
  ∀ (i : Fin 4) (x : Chan) (k : Nat) (s : State), s.quiet → s.clocked → x = s.eng.chan i.val → x.modulating = true → s.eng.mode = .play →
    x.trimDone = some k → x.trimSpan ≤ s.eng.strobe.n - k →
    ∃ w : Engine, exec (.trimRequestTimeout i) s = .next (s.actedAt w) ∧ w.chan i.val = { x with request := true } ∧
      (∀ j, j ≠ i.val → w.chan j = s.eng.chan j) ∧
      w = { s.eng with out := { s.eng.out with chans := w.out.chans } }

/-- The calibrations and trims that go on in service. -/
def Obligations.CalibrationsAndTrims : Prop := LinesAreRecalibrated ∧ TrimsAreServed

/-! ## Remote control and switches (16) -/

/-- A code that is decided starts a chain, in place of the chain that is alive; before F it is held as well with its time in crystal
periods, the latest eight (R184, R695). -/
def ChainBegins (t : Nat) (k : IrCode) (s u : State) : Prop :=
  u = { s with eng := { s.eng with
    now := max s.eng.now (t : Rat), evq := [], ir := { s.eng.ir with chain := some ⟨k, (t : Rat), (t : Rat), (t : Rat), false, false⟩ }
    steep := if s.eng.served = true then s.eng.steep else { s.eng.steep with irHold :=
      if s.eng.steep.irHold.length < 8 then s.eng.steep.irHold ++ [(k, t / 16)] else (s.eng.steep.irHold ++ [(k, t / 16)]).drop 1 } } }

/-- A frame joins the chain that is alive: the chain keeps its code and its start. -/
def ChainGoesOn (t : Nat) (ch : IrChain) (s u : State) : Prop :=
  ∃ ch', ch'.code = ch.code ∧ ch'.start = ch.start ∧ ch'.last = (t : Rat) ∧
    u = { s with eng := { s.eng with now := max s.eng.now (t : Rat), evq := [], ir := { s.eng.ir with chain := some ch' } } }

/-- The remote-control frames: a code frame starts a chain, a repeat frame within 150 ms keeps one of the first protocol alive, a bi-phase frame
of the same code within 150 ms keeps its chain alive and starts one otherwise; a frame that does not decode only moves the time (R689 to
R697). -/
def Obligations.IrFramesMakeChains : Prop :=
  (∀ (runs : List IrRun) (t : Nat) (k : IrCode) (s : State), s.quiet → irFresh runs (t : Rat) s.eng = true → pdCode runs = some k →
    ∃ u, exec (.pulseDistanceCodeFrame runs t) s = .next u ∧ ChainBegins t k s u) ∧
  (∀ (runs : List IrRun) (t : Nat) (s : State), s.quiet → pdCode runs = none →
    exec (.pulseDistanceCodeFrame runs t) s = .next { s with eng := { s.eng with now := max s.eng.now (t : Rat), evq := [] } }) ∧
  (∀ (runs : List IrRun) (t : Nat) (ch : IrChain) (s : State), s.quiet → irFresh runs (t : Rat) s.eng = true → pdRepeat runs = true →
    s.eng.ir.chain = some ch → ch.code.proto = 1 → (t : Rat) ≤ ch.last + msT 150 →
    ∃ u, exec (.pulseDistanceRepeatFrame runs t) s = .next u ∧ ChainGoesOn t ch s u) ∧
  (∀ (runs : List IrRun) (t : Nat) (k : IrCode) (s : State), s.quiet → irFresh runs ((t : Rat) - msT 2) s.eng = true → biCode runs = some k →
    (∀ ch, s.eng.ir.chain = some ch → ch.code ≠ k ∨ ch.last + msT 150 < (t : Rat)) →
    ∃ u, exec (.biPhaseFrame runs t) s = .next u ∧ ChainBegins t k s u) ∧
  ∀ (runs : List IrRun) (t : Nat) (k : IrCode) (ch : IrChain) (s : State), s.quiet → irFresh runs ((t : Rat) - msT 2) s.eng = true → biCode runs = some k →
    s.eng.ir.chain = some ch → ch.code = k → (t : Rat) ≤ ch.last + msT 150 →
    ∃ u, exec (.biPhaseFrame runs t) s = .next u ∧ ChainGoesOn t ch s u

/-- A chain ends 150 ms after its last frame, and with a flood: an activity run of 120 ms after an idle interval raises IR_FLOOD and holds
the decoder off until the input has been idle for 20 ms, 491520 crystal periods (R697 to R699); a flood that is not due changes nothing (log
8). -/
def IrChainsEnd : Prop :=
  (∀ (t : Nat) (ch : IrChain) (s : State), s.quiet → s.eng.ir.chain = some ch →
    exec (.chainTimeout t) s = .next { s with eng := { s.eng with
      now := max s.eng.now (t : Rat), evq := []
      ir := if ch.last + msT 150 ≤ (t : Rat) then { s.eng.ir with chain := none } else s.eng.ir } }) ∧
  (∀ (runs : List IrRun) (t : Nat) (s : State), s.quiet →
    (irRuns s.eng = true → floodDue runs t s.eng = true → exec (.flood ⟨runs, t⟩) s = .next (s.acted { (s.eng.at t).raise 0x34 with
      ir := { s.eng.ir with chain := none, flood := true } })) ∧
    (irRuns s.eng = false ∨ floodDue runs t s.eng = false → exec (.flood ⟨runs, t⟩) s = .next (s.acted (s.eng.at t)))) ∧
  ∀ (idle : IrRun) (t : Nat) (s : State), s.running = true → s.calm →
    (s.eng.ir.flood = true → idle.asserted = false → 491520 ≤ idle.len →
      exec (.floodEnd ⟨idle, t⟩) s = .next { s with eng := { s.eng.at t with ir := { s.eng.ir with flood := false, since := (t : Rat) } } }) ∧
    (s.eng.ir.flood = false ∨ idle.asserted = true ∨ idle.len < 491520 → exec (.floodEnd ⟨idle, t⟩) s = .next { s with eng := s.eng.at t })

/-- DEBOUNCE_CHANGE, SWITCH_REPEAT and SWITCH_LONG on an input entry: the debounced state turns over when its run is complete, REPEAT and LONG
count from the press (R704, R705, R718, R719); before that, and with no change due, the three rows change nothing (log 8). -/
def SwitchesAct : Prop :=
  (∀ (i : Fin 16) (g : GpEntry) (s : State), s.quiet → g = s.eng.gpAt i.val → gpDue s.caddy s.eng i.val = true →
    ∃ u d, exec (.debounceChange i) s = .next u ∧
      u.eng.gpAt i.val = { g with state := !g.state, run := 0, hold := 0, due := d, longDone := false } ∧
      (gpActive s.caddy s.eng i.val = true ∨ gpClass s.caddy s.eng.image i.val = 0 → d = 0) ∧
      (∀ j, j ≠ i.val → u.eng.gpAt j = s.eng.gpAt j) ∧ u = { s with eng := { s.eng with evq := [], gp := u.eng.gp } }) ∧
  (∀ (i : Fin 16) (s : State), s.calm → gpDue s.caddy s.eng i.val = false → exec (.debounceChange i) s = .next s) ∧
  (∀ (i : Fin 16) (g : GpEntry) (s : State), s.quiet → g = s.eng.gpAt i.val → gpInput s.caddy s.eng i.val = true →
    gpRole s.caddy s.eng.image i.val = 0 → gpActive s.caddy s.eng i.val = true → 0 < g.due → g.due ≤ g.hold →
    (gpClass s.caddy s.eng.image i.val = 1 → gpDue s.caddy s.eng i.val = false →
      ∃ u, exec (.switchRepeat i) s = .next u ∧
        u.eng.gpAt i.val = { g with hold := g.hold - g.due
                                    due := msTicks s.eng.kettle.fam (timesRepeat (gpSlot s.caddy s.eng.image i.val 4)) } ∧
        (∀ j, j ≠ i.val → u.eng.gpAt j = s.eng.gpAt j) ∧ u = { s with eng := { s.eng with evq := [], gp := u.eng.gp } }) ∧
    (gpClass s.caddy s.eng.image i.val = 2 → g.longDone = false →
      ∃ u, exec (.switchLong i) s = .next u ∧ u.eng.gpAt i.val = { g with longDone := true } ∧
        (∀ j, j ≠ i.val → u.eng.gpAt j = s.eng.gpAt j) ∧ u = { s with eng := { s.eng with evq := [], gp := u.eng.gp } })) ∧
  ∀ (i : Fin 16) (s : State), s.calm → (s.eng.gpAt i.val).hold < (s.eng.gpAt i.val).due →
    exec (.switchRepeat i) s = .next s ∧ exec (.switchLong i) s = .next s

/-- The ends of chains, floods, and the switches. -/
def Obligations.ChainsEndAndSwitchesAct : Prop := IrChainsEnd ∧ SwitchesAct

/-! ## Health (21) -/

/-- The engine with every cell that has returned since the last rotation free to take a role (R420). -/
def rested (e : Engine) : Engine := { e with health := { e.health with cells := e.health.cells.map fun x => { x with back := false } } }

/-- ROTATION: the rotation of the strobe is counted, a pair out of service returns to the best spare, and the working cell whose last pass
is the earliest goes to its test: a spare at once, a cell with a role once that has moved to the best spare (R422, R873, R874). The retests
of every 96th rotation (R881) come with the same command and are left out here; where no rotation falls the command changes nothing (log 8).
-/
def RotationsTestCells : Prop :=
  (∀ (r i : Nat) (s : State), s.quiet → rotationNow s.eng = some r → r % 96 ≠ 0 →
    voiceCells (s.eng.health.f + fencesAhead s.eng.health) ≤ s.eng.cond.limit / 2 →
    rotationPick s.eng = some i → s.eng.health.cells.length = 192 →
    ∃ u, exec .rotation s = .next u ∧ u.eng.health.rot = r ∧
      ((s.eng.cellAt i).role = .spare →
        u.eng.cellAt i = { s.eng.cellAt i with
          testing := some s.eng.health.order, began := s.eng.health.order, retest := false, back := false } ∧
        u.eng.health.moves = s.eng.health.moves) ∧
      ((s.eng.cellAt i).role ≠ .spare → ∀ d, bestSpare (rested s.eng) = some d →
        u.eng.health.cells = (rested s.eng).health.cells ∧
        u.eng.health.moves = s.eng.health.moves ++ [⟨i, some d, (s.eng.cellAt i).role, s.eng.target, false, false, false⟩]) ∧
      u = { s with eng := { s.eng with evq := [], health := u.eng.health } }) ∧
  (∀ (r d : Nat) (s : State), s.quiet → rotationNow s.eng = some r →
    voiceCells (s.eng.health.f + fencesAhead s.eng.health) = s.eng.cond.limit / 2 + 1 →
    bestSpare (rested s.eng) = some d → s.eng.health.cells.length = 192 →
    ∃ u, exec .rotation s = .next u ∧ u.eng.cond = { s.eng.cond with limit := s.eng.cond.limit + 2 } ∧
      (u.eng.cellAt d).role = .voice (s.eng.cond.limit / 2) ∧
      u = { s with eng := { s.eng with evq := [], health := u.eng.health, cond := u.eng.cond } }) ∧
  ∀ s : State, s.calm → rotationNow s.eng = none → exec .rotation s = .next s

/-- CELL_TEST_COMPLETE: a test passes where everything read equals its signature with correct parity (R876); a working cell that passes is
eligible again, one that fails is fenced with CELL_FENCED; a fenced cell returns as a spare after three passes in a row, to take a role from
the next rotation on, and a failure starts the count again (R420, R876, R877, R881, R882). That a failed retest counts as a fence and raises
CELL_FENCED is the model's reading of R878 (log 46); what the test leaves in the cell is its choice (log 101). The other cells keep what
they hold. -/
def CellTestsDecide : Prop :=
  ∀ (i : Fin 192) (good bad : List TestRead) (o : Nat) (x : CellHealth) (s : State), s.quiet → s.eng.health.cells.length = 192 → x = s.eng.cellAt i.val →
    x.testing = some o → s.eng.health.parity.contains i.val = false → (∀ r ∈ good, TestRead.ok r = true) → (∃ r ∈ bad, TestRead.ok r = false) →
    ∃ u v, exec (.cellTestComplete i good) s = .next u ∧ exec (.cellTestComplete i bad) s = .next v ∧
      (x.role ≠ .fenced → u.eng.cellAt i.val = { x with testing := none, passed := s.eng.health.order, fit := true } ∧
        u.eng.health.f = s.eng.health.f ∧ u.eng.faults = s.eng.later.faults ∧
        (v.eng.cellAt i.val).role = .fenced ∧ (v.eng.cellAt i.val).fences = x.fences + 1 ∧ v.eng.health.f = s.eng.health.f + 1 ∧
        v.eng.faults = (s.eng.later.raiseAll (0x18 :: only (144 < s.eng.health.f + 1 && !s.eng.health.lost) 0x1D)).faults) ∧
      (x.role = .fenced → x.passes < 2 → u.eng.cellAt i.val = { x with testing := none, passes := x.passes + 1 } ∧
        u.eng.faults = s.eng.later.faults) ∧
      (x.role = .fenced → x.passes = 2 → u.eng.cellAt i.val =
          { x with role := .spare, fit := true, back := true, testing := none, retest := false, passes := 0, passed := s.eng.health.order } ∧
        u.eng.health.f = s.eng.health.f - 1 ∧ u.eng.faults = (s.eng.later.raise 0x1C).faults) ∧
      (x.role = .fenced → v.eng.cellAt i.val = { x with testing := none, passes := 0, fences := x.fences + 1 } ∧
        v.eng.faults = (s.eng.later.raise 0x18).faults) ∧
      (∀ j, j ≠ i.val → u.eng.cellAt j = s.eng.cellAt j ∧ v.eng.cellAt j = s.eng.cellAt j ∧
        u.cellAt j = s.cellAt j ∧ v.cellAt j = s.cellAt j) ∧ u.cells = v.cells ∧
      u = { s with cells := u.cells, eng := { s.eng with evq := [], health := u.eng.health, faults := u.eng.faults, pins := u.eng.pins } } ∧
      v = { s with cells := v.cells, eng := { s.eng with evq := [], health := v.eng.health, faults := v.eng.faults, pins := v.eng.pins } }

/-- R876: which reads of a test are sound, and what the test leaves: the own address in every word, the accumulator and the address
registers as they were. -/
def TestsReadPatterns : Prop :=
  (∀ (m : Fin 3) (i : Fin 1024) (got : W32) (par : Bool),
    (TestRead.ok (.word m i 0 got par) = true ↔ par = true ∧ got = 0x55555555#32) ∧
    (TestRead.ok (.word m i 1 got par) = true ↔ par = true ∧ got = 0xAAAAAAAA#32) ∧
    (TestRead.ok (.word m i 2 got par) = true ↔ par = true ∧ got = BitVec.ofNat 32 i.val)) ∧
  ∀ (k : Cell) (i : Nat), k.tested.acc = k.acc ∧ k.tested.addr = k.addr ∧ k.tested.ok = (accOk k.acc && k.addr.length == 8) ∧
    (i < 1024 → sparseGet 0#32 k.tested.localMem i = BitVec.ofNat 32 i) ∧
    (i < 64 → sparseGet 0#32 k.tested.active i = BitVec.ofNat 32 i ∧ sparseGet 0#32 k.tested.shadow i = BitVec.ofNat 32 i)

/-- Rotations and cell tests. -/
def Obligations.RotationsAndCellTests : Prop := RotationsTestCells ∧ CellTestsDecide ∧ TestsReadPatterns

/-- No two of the 192 cells hold the same role. -/
def RolesOnce (e : Engine) : Prop := ∀ j < 192, ∀ k < 192, holdsRole e j = true → (e.cellAt j).role = (e.cellAt k).role → j = k

/-- ROLE_MOVE at its boundary: the receiving cell takes the role and with it what the cell held that gives it up, so that the role goes on
as before; that cell goes to its test as a spare, or is fenced with CELL_FENCED; the role of a stalled cell, which was fenced when it was
found, moves alone; without a move whose boundary has come nothing (R32, R408, R419, R874, R879, R880). -/
def RolesMoveAtTheirBoundary : Prop :=
  (∀ (i d : Fin 192) (n : Nat) (m : Move) (s : State), s.quiet → s.eng.health.cells.length = 192 → s.cells.length = 192 → i ≠ d →
    s.eng.health.moves = [m] → m.src = i.val → m.dst = some d.val → m.stall = false → m.role = (s.eng.cellAt i.val).role →
    s.eng.fifo.next = some n → m.frame ≤ n → (∀ f ∈ s.eng.fifo.frames, i.val ∉ f.stuck) →
    holdsRole s.eng i.val = true → RolesOnce s.eng →
    ∃ u, exec (.roleMove i) s = .next u ∧ (u.eng.cellAt d.val).role = (s.eng.cellAt i.val).role ∧ (u.eng.cellAt d.val).testing = none ∧
      u.eng.health.moves = [] ∧
      (m.fence = false → u.eng.cellAt i.val = { s.eng.cellAt i.val with
        role := .spare, fit := false, testing := some s.eng.health.order, began := s.eng.health.order, retest := false } ∧
        u.eng.faults = s.eng.later.faults) ∧
      (m.fence = true → (u.eng.cellAt i.val).role = .fenced ∧ (u.eng.cellAt i.val).fences = (s.eng.cellAt i.val).fences + 1 ∧
        u.eng.health.f = s.eng.health.f + 1 ∧
        u.eng.faults = (s.eng.later.raiseAll (0x18 :: only (144 < s.eng.health.f + 1 && !s.eng.health.lost) 0x1D)).faults) ∧
      (∀ j, j ≠ i.val → j ≠ d.val → u.eng.cellAt j = s.eng.cellAt j) ∧
      u.cellAt d.val = s.cellAt i.val ∧ (∀ j, j ≠ d.val → u.cellAt j = s.cellAt j) ∧
      u = { s with
        cells := u.cells, dnew := u.dnew
        eng := { s.eng with evq := [], health := u.eng.health, faults := u.eng.faults, pins := u.eng.pins } }) ∧
  (∀ (i d : Fin 192) (n : Nat) (m : Move) (s : State), s.quiet → s.eng.health.cells.length = 192 → s.cells.length = 192 → i ≠ d →
    s.eng.health.moves = [m] → m.src = i.val → m.dst = some d.val → m.stall = true → m.role.works = true → s.eng.fifo.next = some n → m.frame ≤ n →
    (∀ j < 192, (s.eng.cellAt j).role ≠ m.role) →
    ∃ u, exec (.roleMove i) s = .next u ∧ u.eng.health.moves = [] ∧
      u.eng.cellAt d.val = { s.eng.cellAt d.val with role := m.role, fit := false, testing := none } ∧
      (∀ j, j ≠ d.val → u.eng.cellAt j = s.eng.cellAt j) ∧ u.eng.faults = s.eng.later.faults ∧ u.cellAt d.val = Cell.zero) ∧
  ∀ (i : Fin 192) (s : State), s.calm →
    (∀ m ∈ s.eng.health.moves, m.src = i.val → s.eng.fifo.next = none ∨ (∃ n, s.eng.fifo.next = some n ∧ n < m.frame) ∨
      m.stall = false ∧ ∃ f ∈ s.eng.fifo.frames, i.val ∈ f.stuck) →
    exec (.roleMove i) s = .next s

/-- A cell is found stalled at strobe `n`, eight strobes after the frame that it has not finished (R880): it is fenced there with CELL_STALL
and CELL_FENCED, its role waits for the target frame of that strobe, what the meadow began without it is gone, and the voices of a voice
pair are cut in that frame, their slots free from the next stamp on. In that frame the states of a voice pair start anew, and those of the
bus, but for the chorus phase (log 24). -/
def StallsAreFound : Prop :=
  (∀ (i : Fin 192) (t : Time) (d p n : Nat) (f : FrameRec) (s : State), s.inService → s.eng.mode ≠ .load → nextStrobe s.eng = some t →
    s.eng.strobe.started = true → n = s.eng.strobe.n + 1 → s.eng.steep.p = some p → p ≤ n → s.eng.health.cells.length = 192 →
    s.eng.fifo.frames = [f] → f.done = false → f.n + 8 ≤ n → f.stuck = [i.val] → holdsRole s.eng i.val = true → s.eng.health.moves = [] →
    s.eng.health.parity = [] → s.eng.health.news = [] → s.eng.health.f < 12 → s.eng.cond.limit ≤ 256 → bestSpare s.eng = some d →
    ∃ u, exec .frameStrobe s = .next u ∧ (u.eng.cellAt i.val).role = .fenced ∧ (u.eng.cellAt i.val).fences = (s.eng.cellAt i.val).fences + 1 ∧
      u.eng.health.f = s.eng.health.f + 1 ∧ 0x1B ∈ u.eng.faults.pend.map (·.code) ∧ 0x18 ∈ u.eng.faults.pend.map (·.code) ∧
      u.eng.fifo.frames = [] ∧ u.eng.health.moves = [⟨i.val, some d, (s.eng.cellAt i.val).role, u.eng.target, false, true, true⟩]) ∧
  (∀ (k : Nat) (e : Engine) (r : SlotRec) (j : Nat), e.occupied = [(j, r)] → r.group = [j] → j / 2 = k →
    cutPair k e = { e with cond := { e.cond with
      slots := e.cond.slots.set j ⟨none, e.stamp + 1⟩, queues := e.cond.queues.set j (e.queue j ++ [⟨e.target, r.id, .steal⟩]) } }) ∧
  ∀ (f : Nat) (m : Move) (e : Engine), e.health.moves = [m] → m.lost = true → m.frame ≤ f →
    (∀ k, m.role = .voice k → ∀ j, j = 2 * k ∨ j = 2 * k + 1 → j < e.voices.length →
      (nth SlotCell.zero (lostStates f e).voices j).word = 0#32 ∧ (nth SlotCell.zero (lostStates f e).voices j).tail = none) ∧
    (∀ b, m.role = .bus b → (lostStates f e).bus = { Bus.zero with chPhase := e.bus.chPhase })

/-- The moves of roles, and the stalls. -/
def Obligations.RolesMove : Prop := RolesMoveAtTheirBoundary ∧ StallsAreFound

/-! ## Load service (17) -/

/-- The engine after the load frame with `n` payload bytes whose first start edge falls at `t`: its characters follow one another and the
idle line ends it (R272, R273, R741), which is the model's choice for a row that names no other instant (log 109). A message in progress
counts as partial. -/
def afterFrame (t n : Nat) (e : Engine) : Engine :=
  let now := max e.now ((t : Rat) + (10 * ((9 + n : Nat) : Rat) + 19 / 2) * e.link.tr.getD 0)
  { e with
    now := now
    link := { e.link with
      ref := none, sync := autobaud e.straps, cand := [], candFrom := now, rx := [], rxStart := none
      parser := { e.link.parser with status := none, data := [], sysex := false }
      partialCount :=
        if e.link.parser.status.isSome = true ∨ e.link.parser.sysex = true then min 0xFFFF (e.link.partialCount + 1) else e.link.partialCount } }

/-- The engine after load frame `cmd` with SEQ `seq` is answered with `result` and `data`; the acknowledgement is due from the end of the frame's
processing on (R743, R744). -/
def answered (cmd seq result : Byte) (data : List Byte) (e : Engine) : Engine :=
  { e with load := { e.load with
    recorded := some (seq, cmd, ackBytes cmd seq result data), ackDue := some (ackBytes cmd seq result data), ackFrom := e.now } }

/-- The machine with the engine `e`, in which load frame `cmd` is answered with `result`. -/
def replies (cmd seq result : Byte) (e : Engine) (s : State) : State := { s with eng := answered cmd seq result [] e }

/-- The session and the open section become `ses` and `o`. -/
def sessionBecomes (ses : Option Session) (o : Option OpenSection) (e : Engine) : Engine := { e with load := { e.load with session := ses, sect := o } }

/-- The rows from `a` on hold `bs` and every byte outside them is as it was. -/
def RowsHold (a : Nat) (bs : List Byte) (c d : Memory) : Prop :=
  (∀ k < bs.length, caddyGet d (a + k) = nth 0#8 bs k) ∧
    ∀ x, x < a ∨ a + 64 * ((bs.length + 63) / 64) ≤ x → caddyGet d x = caddyGet c x

/-- A load frame is discarded, with its idle line, where it begins while the last acknowledgement is due or still on TXD (R742); outside
Load mode and where no receiver takes its characters it does nothing. -/
def FramesAreDiscarded : Prop :=
  (∀ (seq : Byte) (t : Nat) (s : State), s.running = true → s.eng.mode = .load → armedAt (t : Rat) s.eng = true → s.eng.link.rx = [] →
    s.eng.load.ackDue.isSome = true ∨ (t : Rat) < s.eng.load.ackStop ∨ s.eng.load.begun = false →
    exec (.loadInfo ⟨seq, t⟩) s = .next { s with eng := afterFrame t 0 s.eng } ∧
    exec (.loadAbort ⟨seq, t⟩) s = .next { s with eng := afterFrame t 0 s.eng }) ∧
  ∀ (seq : Byte) (t : Nat) (s : State), s.eng.mode ≠ .load ∨ armedAt (t : Rat) s.eng = false →
    exec (.loadInfo ⟨seq, t⟩) s = .next s ∧ exec (.loadAbort ⟨seq, t⟩) s = .next s

/-- INFO answers Table 17-11; OPEN begins an update session where a directory is in force and none is open, SECTION opens a section in the
lowest free run, the calibration section without one, ABORT ends the session; a command out of its state is answered STATE, and nothing else
changes (R745 to R748, R752). -/
def SessionsOpen : Prop :=
  ∀ (seq : Byte) (t : Nat) (s : State), s.serving t seq →
    exec (.loadInfo ⟨seq, t⟩) s = .next { s with eng := answered 0x01#8 seq 0x00#8 (infoData s.caddy s.eng) (afterFrame t 0 s.eng) } ∧
    exec (.loadAbort ⟨seq, t⟩) s = .next (replies 0x15#8 seq 0x00#8 (sessionBecomes none none (afterFrame t 0 s.eng)) s) ∧
    (∀ m tag fr, s.eng.load.session.isSome = true →
      exec (.loadOpen ⟨seq, t⟩ m tag fr) s = .next (replies 0x10#8 seq 0x03#8 (afterFrame t 5 s.eng) s)) ∧
    (∀ tag fr, s.eng.load.session = none →
      ((directoryInForce s.caddy).isSome = true → exec (.loadOpen ⟨seq, t⟩ 0#8 tag fr) s = .next (replies 0x10#8 seq 0x00#8
          (sessionBecomes (some ⟨false, tag, [], 4, none⟩) none (afterFrame t 5 s.eng)) s)) ∧
      (directoryInForce s.caddy = none →
        exec (.loadOpen ⟨seq, t⟩ 0#8 tag fr) s = .next (replies 0x10#8 seq 0x03#8 (afterFrame t 5 s.eng) s))) ∧
    (∀ m tag fr, s.eng.load.session = none → m ≠ 0#8 → m ≠ 1#8 →
      exec (.loadOpen ⟨seq, t⟩ m tag fr) s = .next (replies 0x10#8 seq 0x04#8 (afterFrame t 5 s.eng) s)) ∧
    (∀ id len crc, s.eng.load.session = none ∨ s.eng.load.sect.isSome = true →
      exec (.loadSection ⟨seq, t⟩ id len crc) s = .next (replies 0x11#8 seq 0x03#8 (afterFrame t 10 s.eng) s)) ∧
    (∀ (id : W16) (len crc : W32) ses a, s.eng.load.session = some ses → s.eng.load.sect = none → ses.full = false → contentId id.toNat = true →
      id ≠ 0x0300#16 → 0 < len.toNat → len.toNat ≤ 4177920 → freeRun (entriesInForce s.caddy) (sectorsOf len.toNat) 1024 4 = some a →
      exec (.loadSection ⟨seq, t⟩ id len crc) s = .next (replies 0x11#8 seq 0x00#8
          (sessionBecomes (some ses) (some ⟨id.toNat, len.toNat, crc, a, 0, []⟩) (afterFrame t 10 s.eng)) s)) ∧
    ∀ (len crc : W32) ses, s.eng.load.session = some ses → s.eng.load.sect = none →
     ses.full = false ∨ ses.cal = none ∧ (∀ x ∈ ses.entries, x.id ≠ 0x0300) →
      0 < len.toNat → len.toNat ≤ 4032 →
      exec (.loadSection ⟨seq, t⟩ 0x0300#16 len crc) s = .next (replies 0x11#8 seq 0x00#8
          (sessionBecomes (some ses) (some ⟨0x0300, len.toNat, crc, 0, 0, []⟩) (afterFrame t 10 s.eng)) s)

/-- Sessions, and the frames that are discarded. -/
def Obligations.LoadSessionsOpen : Prop := FramesAreDiscarded ∧ SessionsOpen

/-- DATA writes its bytes at the section's offset of the caddy, padded to rows with 0x00, where it follows what has been received and ends
on a row or with the section; the bytes of the calibration section are kept until SEAL; without an open section DATA is answered STATE
(R746, R755). -/
def DataReachesTheCaddy : Prop :=
  ∀ (seq : Byte) (t : Nat) (s : State), s.serving t seq →
    (∀ (off : W32) (bs : List Byte) (ses : Session) (o : OpenSection), s.eng.load.session = some ses → s.eng.load.sect = some o →
      o.id ≠ 0x0300 → 0 < bs.length → bs.length ≤ 1024 → off.toNat = o.got → o.got + bs.length ≤ o.length →
      bs.length % 64 = 0 ∨ o.got + bs.length = o.length → o.got % 64 = 0 → Memory.wf s.caddy = true → 4096 * o.start + o.length + 63 < 4194304 →
      ∃ u, exec (.loadData ⟨seq, t⟩ off bs none) s = .next u ∧ RowsHold (4096 * o.start + o.got) bs s.caddy u.caddy ∧
        u = replies 0x12#8 seq 0x00#8
          (sessionBecomes (some ses) (some { o with got := o.got + bs.length }) (afterFrame t (4 + bs.length) s.eng)) { s with caddy := u.caddy }) ∧
    (∀ (off : W32) (bs : List Byte) (fr : Option Nat) (ses : Session) (o : OpenSection), s.eng.load.session = some ses → s.eng.load.sect = some o →
      o.id = 0x0300 → 0 < bs.length → bs.length ≤ 1024 → off.toNat = o.got → o.got + bs.length ≤ o.length →
      bs.length % 64 = 0 ∨ o.got + bs.length = o.length →
      exec (.loadData ⟨seq, t⟩ off bs fr) s = .next (replies 0x12#8 seq 0x00#8
          (sessionBecomes (some ses) (some { o with got := o.got + bs.length, held := o.held ++ bs }) (afterFrame t (4 + bs.length) s.eng)) s)) ∧
    ∀ (off : W32) (bs : List Byte) (fr : Option Nat), s.eng.load.sect = none →
      exec (.loadData ⟨seq, t⟩ off bs fr) s = .next (replies 0x12#8 seq 0x03#8 (afterFrame t (4 + bs.length) s.eng) s)

/-- SEAL of a content section that is complete (R749, R734): a check word that does not match is answered CHECK and closes the section; in
an update session a matching one writes the directory copy not in force, with the generation after the highest, the tag of the session, and
the section in the place of its former entry; in a full-replace session it only records the entry. From generation 250000 on the update is
refused with WORN and CADDY_WORN. Without an open section it is answered STATE. -/
def SectionsAreSealed : Prop :=
  ∀ (seq : Byte) (t : Nat) (s : State), s.serving t seq →
    (∀ (fr : Option Nat), s.eng.load.sect = none →
      exec (.loadSeal ⟨seq, t⟩ fr) s = .next (replies 0x13#8 seq 0x03#8 (afterFrame t 0 s.eng) s)) ∧
    ∀ (fr : Option Nat) (ses : Session) (o : OpenSection) (ok : Bool), s.eng.load.session = some ses → s.eng.load.sect = some o → o.id ≠ 0x0300 →
      ok = decide (crc32c (caddyRange s.caddy (4096 * o.start) o.length) = o.scrc) →
      (o.got ≠ o.length →
        exec (.loadSeal ⟨seq, t⟩ fr) s = .next (replies 0x13#8 seq 0x03#8 (afterFrame t 0 s.eng) s)) ∧
      (o.got = o.length → ses.full = false → 250000 ≤ generation s.caddy →
        exec (.loadSeal ⟨seq, t⟩ fr) s = .next (replies 0x13#8 seq 0x07#8 ((afterFrame t 0 s.eng).raise 0x12) s)) ∧
      (o.got = o.length → ses.full = true ∨ generation s.caddy < 250000 → ok = false →
        exec (.loadSeal ⟨seq, t⟩ fr) s = .next (replies 0x13#8 seq 0x06#8
          (sessionBecomes (some ses) none (afterFrame t 0 s.eng)) s)) ∧
      (o.got = o.length → ses.full = true → ok = true →
        exec (.loadSeal ⟨seq, t⟩ fr) s = .next (replies 0x13#8 seq 0x00#8
          (sessionBecomes (some { ses with
          entries := ses.entries ++ [⟨o.id, o.start, (o.length + 4095) / 4096, o.length, o.scrc⟩], next := o.start + (o.length + 4095) / 4096 })
          none (afterFrame t 0 s.eng)) s)) ∧
      (o.got = o.length → ses.full = false → generation s.caddy < 250000 → ok = true → Memory.wf s.caddy = true →
        ∃ u k, exec (.loadSeal ⟨seq, t⟩ none) s = .next u ∧
          k = (match directoryInForce s.caddy with | some d => 1 - d.copy | none => 0) ∧
          RowsHold (4096 * (2 + k)) (directoryBytes (generation s.caddy + 1) ses.tag ((entriesInForce s.caddy).filter (fun x => decide (x.id ≠ o.id)) ++
            [⟨o.id, o.start, (o.length + 4095) / 4096, o.length, o.scrc⟩])) s.caddy u.caddy ∧
          u = replies 0x13#8 seq 0x00#8 (sessionBecomes (some ses) none (afterFrame t 0 s.eng)) { s with caddy := u.caddy })

/-- CLOSE ends an update session; it commits a full replacement by writing the calibration that was sealed, then both copies of the
directory (R752, R756). Without a session, or with a section open, it is answered STATE. -/
def SessionsClose : Prop :=
  ∀ (seq : Byte) (t : Nat) (s : State), s.serving t seq →
    (∀ (fr : Option Nat) (ses : Session), s.eng.load.session = some ses → s.eng.load.sect = none → ses.full = false →
      exec (.loadClose ⟨seq, t⟩ fr) s = .next (replies 0x14#8 seq 0x00#8 (sessionBecomes none none (afterFrame t 0 s.eng)) s)) ∧
    (∀ (ses : Session) (d : List Byte), s.eng.load.session = some ses → s.eng.load.sect = none → ses.full = true → generation s.caddy < 250000 →
      ses.entries.length ≤ 21 → (∀ bs, ses.cal = some bs → bs.length ≤ 4032 ∧ calSeq s.caddy + 1 ≤ 500000) → Memory.wf s.caddy = true →
      d = directoryBytes (generation s.caddy + 1) ses.tag ses.entries →
      ∃ u, exec (.loadClose ⟨seq, t⟩ none) s = .next u ∧
        (∀ k < d.length, caddyGet u.caddy (8192 + k) = nth 0#8 d k ∧ caddyGet u.caddy (12288 + k) = nth 0#8 d k) ∧
        (∀ bs, ses.cal = some bs → ∀ k < 64 + bs.length, caddyGet u.caddy k = nth 0#8 (calBytes (calSeq s.caddy + 1) bs) k ∧
          caddyGet u.caddy (4096 + k) = nth 0#8 (calBytes (calSeq s.caddy + 1) bs) k) ∧
        (∀ x, 16384 ≤ x ∨ ses.cal = none ∧ x < 8192 → caddyGet u.caddy x = caddyGet s.caddy x) ∧
        u = replies 0x14#8 seq 0x00#8 (sessionBecomes none none (afterFrame t 0 s.eng)) { s with caddy := u.caddy }) ∧
    ∀ (fr : Option Nat), s.eng.load.session = none ∨ s.eng.load.sect.isSome = true →
      exec (.loadClose ⟨seq, t⟩ fr) s = .next (replies 0x14#8 seq 0x03#8 (afterFrame t 0 s.eng) s)

/-- SEAL of the calibration section (R737, R750, R755): a wrong check word is answered CHECK; in a full-replace session the bytes are kept
for CLOSE; in an update session both copies are written with the SEQ after the highest, unless that would pass 500000, which is refused with
WORN and CADDY_WORN. -/
def CalibrationIsSealed : Prop :=
  ∀ (seq : Byte) (t : Nat) (fr : Option Nat) (ses : Session) (o : OpenSection) (s : State), s.serving t seq → s.eng.load.session = some ses →
    s.eng.load.sect = some o → o.id = 0x0300 → o.got = o.length →
    (crc32c o.held ≠ o.scrc → exec (.loadSeal ⟨seq, t⟩ fr) s = .next (replies 0x13#8 seq 0x06#8
          (sessionBecomes (some ses) none (afterFrame t 0 s.eng)) s)) ∧
    (crc32c o.held = o.scrc → ses.full = true → exec (.loadSeal ⟨seq, t⟩ fr) s = .next (replies 0x13#8 seq 0x00#8
          (sessionBecomes (some { ses with cal := some o.held }) none (afterFrame t 0 s.eng)) s)) ∧
    (crc32c o.held = o.scrc → ses.full = false → 500000 < calSeq s.caddy + 1 → exec (.loadSeal ⟨seq, t⟩ fr) s = .next (replies 0x13#8 seq 0x07#8
          ((afterFrame t 0 s.eng).raise 0x12) s)) ∧
    (crc32c o.held = o.scrc → ses.full = false → calSeq s.caddy + 1 ≤ 500000 → o.held.length ≤ 4032 → Memory.wf s.caddy = true →
      ∃ u, exec (.loadSeal ⟨seq, t⟩ none) s = .next u ∧
        (∀ k < 64 + o.held.length, caddyGet u.caddy k = nth 0#8 (calBytes (calSeq s.caddy + 1) o.held) k ∧
          caddyGet u.caddy (4096 + k) = nth 0#8 (calBytes (calSeq s.caddy + 1) o.held) k) ∧
        (∀ x, 8192 ≤ x → caddyGet u.caddy x = caddyGet s.caddy x) ∧
        u = replies 0x13#8 seq 0x00#8 (sessionBecomes (some ses) none (afterFrame t 0 s.eng)) { s with caddy := u.caddy })

/-- What DATA, SEAL and CLOSE do. -/
def Obligations.LoadDataReachesTheCaddy : Prop := DataReachesTheCaddy ∧ SectionsAreSealed ∧ SessionsClose ∧ CalibrationIsSealed

/-! ## Binding actions (20.8) -/

/-- The mix takes the settings `m` in the target frame, and thermos word `i` the value `w`. -/
def MixBecomes (m : MixRec) (i : Nat) (w : W16) (s u : State) : Prop :=
  u = { s with eng := { s.eng with
    evq := [], mix := m, mixChg := s.eng.mixChg ++ [(s.eng.target, m)], due := s.eng.due ++ [(s.eng.target, i, w)] } }

/-- Volume and mute: VOLUME_STEP and VOLUME_SET keep the index in 0 to 255 and write T01, a higher index lifts a mute, MUTE, UNMUTE and
MUTE_TOGGLE set the mute with a 10 ms ramp; a value out of range, or a mute that is already so, changes nothing (R622, R623, R843). -/
def VolumeAndMute : Prop :=
  (∀ (v : W32) (n : Nat) (s : State), s.inService → s.eng.mix.muted = false →
    (-255 ≤ v.toInt → v.toInt ≤ 255 → (n : Int) = max 0 (min 255 ((s.eng.mix.index : Int) + v.toInt)) →
      ∃ u m, exec (.volumeStep v) s = .next u ∧ MixBecomes m 1 (BitVec.ofNat 16 n) s u ∧ m = { s.eng.mix with index := n, vol := m.vol } ∧
        (n ≠ s.eng.mix.index → m.vol.v1 = volDb n) ∧ (n = s.eng.mix.index → m.vol = s.eng.mix.vol)) ∧
    (v.toInt = (n : Int) → n ≤ 255 →
      ∃ u m, exec (.volumeSet v) s = .next u ∧ MixBecomes m 1 (BitVec.ofNat 16 n) s u ∧ m = { s.eng.mix with index := n, vol := m.vol } ∧
        (n ≠ s.eng.mix.index → m.vol.v1 = volDb n) ∧ (n = s.eng.mix.index → m.vol = s.eng.mix.vol))) ∧
  (∀ (v : W32) (n : Nat) (s : State), s.inService → s.eng.mix.muted = true → v.toInt = (n : Int) → n ≤ 255 →
    ∃ u m, exec (.volumeSet v) s = .next u ∧
      MixBecomes m 1 (BitVec.ofNat 16 (n + if s.eng.mix.index < n then 0 else 32768)) s u ∧ m.index = n ∧
      m.muted = decide (n ≤ s.eng.mix.index) ∧ (s.eng.mix.index < n → m.gM.v1 = 1)) ∧
  (∀ (v : W32) (s : State), s.calm → v.toInt < -255 ∨ 255 < v.toInt → exec (.volumeStep v) s = .next s ∧ exec (.volumeSet v) s = .next s) ∧
  (∀ s : State, s.inService → s.eng.mix.muted = false → ∃ u m, exec .mute s = .next u ∧ exec .muteToggle s = .next u ∧
    exec .unmute s = .next s ∧ MixBecomes m 1 (BitVec.ofNat 16 (s.eng.mix.index + 32768)) s u ∧ m.muted = true ∧ m.index = s.eng.mix.index ∧
    m.vol = s.eng.mix.vol ∧ m.gM.v1 = 0 ∧ m.gM.start = s.eng.target) ∧
  ∀ s : State, s.inService → s.eng.mix.muted = true → ∃ u m, exec .unmute s = .next u ∧ exec .muteToggle s = .next u ∧
    exec .mute s = .next s ∧ MixBecomes m 1 (BitVec.ofNat 16 s.eng.mix.index) s u ∧ m.muted = false ∧ m.index = s.eng.mix.index ∧
    m.vol = s.eng.mix.vol ∧ m.gM.v1 = 1 ∧ m.gM.start = s.eng.target

/-- Source and profile: SOURCE_SET, SOURCE_CYCLE, PROFILE_SET and PROFILE_STEP write T02 and T03; a value in force, or one out of range, changes
nothing (R624, R631). -/
def SourceAndProfile : Prop :=
  (∀ (v : W32) (n : Nat) (s : State), s.inService → v.toInt = (n : Int) → n ≤ 2 → n ≠ s.eng.mix.source →
    ∃ u m, exec (.sourceSet v) s = .next u ∧ MixBecomes m 2 (BitVec.ofNat 16 n) s u ∧
      m = { s.eng.mix with source := n, gsP := m.gsP, gsV := m.gsV } ∧ m.gsP.v1 = (if n = 2 then 0 else 1) ∧ m.gsV.v1 = if n = 1 then 0 else 1) ∧
  (∀ s : State, s.inService → s.eng.mix.source ≤ 2 →
    ∃ u m, exec .sourceCycle s = .next u ∧ MixBecomes m 2 (BitVec.ofNat 16 ((s.eng.mix.source + 1) % 3)) s u ∧
      m = { s.eng.mix with source := (s.eng.mix.source + 1) % 3, gsP := m.gsP, gsV := m.gsV }) ∧
  (∀ (v : W32) (n : Nat) (s : State), s.inService → v.toInt = (n : Int) → n ≤ 15 → n ≠ s.eng.mix.profile →
    ∃ u, exec (.profileSet v) s = .next u ∧
      MixBecomes { s.eng.mix with profile := n } 3 (BitVec.ofNat 16 (n + 256 * s.eng.straps.d + 32768)) s u) ∧
  (∀ (v : W32) (n : Nat) (s : State), s.inService → (n : Int) = ((s.eng.mix.profile : Int) + v.toInt) % 16 → n ≠ s.eng.mix.profile →
    ∃ u, exec (.profileStep v) s = .next u ∧
      MixBecomes { s.eng.mix with profile := n } 3 (BitVec.ofNat 16 (n + 256 * s.eng.straps.d + 32768)) s u) ∧
  (∀ (v : W32) (s : State), s.calm → v.toInt < 0 ∨ 2 < v.toInt ∨ v.toInt = s.eng.mix.source → exec (.sourceSet v) s = .next s) ∧
  ∀ (v : W32) (s : State), s.calm → v.toInt < 0 ∨ 15 < v.toInt ∨ v.toInt = s.eng.mix.profile → exec (.profileSet v) s = .next s

/-- DUCK and WET_SET: the enable of a duck, and a wet level limited to 0 to 1 (R618, R824). -/
def DuckAndWet : Prop :=
  (∀ (arg : Byte) (s : State), s.inService → arg.toNat ≤ 2 →
    (∃ b, (arg = 0#8 → b = false) ∧ (arg = 1#8 → b = true) ∧ (arg = 2#8 → b = !s.eng.mix.duckA) ∧
      exec (.duck 0#8 arg) s = .next { s with eng := { s.eng with
        evq := [], mix := { s.eng.mix with duckA := b }, mixChg := s.eng.mixChg ++ [(s.eng.target, { s.eng.mix with duckA := b })] } }) ∧
    ∃ b, (arg = 0#8 → b = false) ∧ (arg = 1#8 → b = true) ∧ (arg = 2#8 → b = !s.eng.mix.duckB) ∧
      exec (.duck 1#8 arg) s = .next { s with eng := { s.eng with
        evq := [], mix := { s.eng.mix with duckB := b }, mixChg := s.eng.mixChg ++ [(s.eng.target, { s.eng.mix with duckB := b })] } }) ∧
  (∀ (i : Byte) (w : W32) (m : MixRec) (s : State), s.inService → i.toNat ≤ 2 →
    m = { s.eng.mix with wet := s.eng.mix.wet.set i.toNat (fClamp 0#32 one32 w) } →
    exec (.wetSet i w) s = .next { s with eng := { s.eng with evq := [], mix := m, mixChg := s.eng.mixChg ++ [(s.eng.target, m)] } }) ∧
  ∀ (a b : Byte) (w : W32) (s : State), s.calm → 2 < a.toNat → exec (.wetSet a w) s = .next s ∧ exec (.duck a b) s = .next s

/-- The actions on the mix. -/
def Obligations.MixActions : Prop := VolumeAndMute ∧ SourceAndProfile ∧ DuckAndWet

/-- Macro `m` of part `p` goes to `goal` from the target frame on: the record `r` of the part with the macro `x` (R811). -/
def MacroAims (p m : Byte) (goal : W32) (r : PartRec) (x : Macro) (s u : State) : Prop :=
  x.v1 = goal ∧ x.start = s.eng.target ∧
    u = { s with eng := { s.eng with
      evq := [], parts := s.eng.parts.set (p.toNat - 1) { r with macros := r.macros.set (m.toNat - 1) x }
      partChg := s.eng.partChg ++ [(s.eng.target, p.toNat - 1, { r with macros := r.macros.set (m.toNat - 1) x })] } }

/-- Part `p` takes program `n` of bank `b` in the target frame, as a program change does: its macros start anew, its word of the thermos is
written, and of the rest only what follows the new patch changes, the note stack, the keys and the lane of the part (R284, R287, R791). -/
def PatchSelected (p : Byte) (b n : Nat) (s u : State) : Prop :=
  ∃ ms, u.eng.part p.toNat = withBend s.caddy (resolvePatch s.eng.image b n)
      { s.eng.part p.toNat with bank := b, patchNo := n, patch := resolvePatch s.eng.image b n, macros := ms } ∧
    (partMode s.caddy u.eng p.toNat = partMode s.caddy s.eng p.toNat → u.eng.cond.noteStacks = s.eng.cond.noteStacks) ∧
    (∀ k, 1 ≤ k → k ≤ 16 → k ≠ p.toNat → u.eng.stack k = s.eng.stack k ∧ u.eng.keys k = s.eng.keys k ∧ u.eng.part k = s.eng.part k) ∧
    u = { s with eng := { s.eng with
      evq := [], parts := s.eng.parts.set (p.toNat - 1) (u.eng.part p.toNat)
      partChg := s.eng.partChg ++ [(s.eng.target, p.toNat - 1, u.eng.part p.toNat)]
      due := s.eng.due ++ [(s.eng.target, 0x10 + (p.toNat - 1), BitVec.ofNat 16 (n + 128 * b))]
      cond := { s.eng.cond with noteStacks := u.eng.cond.noteStacks }
      tempo := { s.eng.tempo with keys := u.eng.tempo.keys, lanes := u.eng.tempo.lanes, writes := u.eng.tempo.writes } } }

/-- The machine with its receiver at rest between two messages, or after the message of status byte `st` that it took at `t`. -/
def receiverAt (st : Option Byte) (t : Option Nat) (s : State) : State :=
  { s with eng := { s.eng with link := { s.eng.link with
    armed := true, sync := false, tr := some 0, ref := t.map fun x => (x : Rat), parser := ⟨st, none, [], false⟩ } } }

/-- CC_SEND and NOTE do what the message of the part's channel does, a NOTE of velocity 0 what a note-off of velocity 64 does (Table 20-11). -/
def ActionsActAsMessages : Prop :=
  ∀ (p x v : Byte) (ch : BitVec 4) (t : Nat) (s : State), s.inService → s.eng.mode ≠ .load → (t : Rat) ≤ s.eng.now → p.toNat = partOf ch →
    partOn s.caddy s.eng p.toNat = true → x.toNat ≤ 127 → v.toNat ≤ 127 →
    (∃ u, exec (.ccSend p x v) s = .next u ∧ exec (.controlChange ch (x.setWidth 7) (v.setWidth 7) t) (receiverAt none none s) =
      .next (receiverAt (some (0xB0#8 ||| ch.setWidth 8)) (some t) u)) ∧
    ∃ u, exec (.note p x v) s = .next u ∧
      (v = 0#8 → exec (.noteOff ch (x.setWidth 7) 64 t) (receiverAt none none s) =
        .next (receiverAt (some (0x80#8 ||| ch.setWidth 8)) (some t) u)) ∧
      (v ≠ 0#8 → exec (.noteOn ch (x.setWidth 7) (v.setWidth 7) t) (receiverAt none none s) =
        .next (receiverAt (some (0x90#8 ||| ch.setWidth 8)) (some t) u))

/-- The actions on a part that is enabled: PATCH_SET and PATCH_STEP select a patch and write the part's word, MACRO_SET and MACRO_STEP give
a macro a target limited to 0 to 1, CC_SEND and NOTE act as the message does; for any other part none of them does anything (R791, R811,
Table 20-11). -/
def Obligations.PartActions : Prop :=
  (∀ (p bank : Byte) (v : W32) (n b : Nat) (s : State), s.inService → 1 ≤ p.toNat → p.toNat ≤ 16 → partOn s.caddy s.eng p.toNat = true →
    s.eng.parts.length = 16 → s.eng.cond.noteStacks.length = 16 → s.eng.tempo.keys.length = 16 → v.toInt = (n : Int) → n ≤ 127 →
    (bank.toNat ≤ 3 ∧ b = bank.toNat ∨ bank = 255#8 ∧ b = defaultBank s.eng.straps) →
    ∃ u, exec (.patchSet p bank v) s = .next u ∧ PatchSelected p b n s u) ∧
  (∀ (p : Byte) (v : W32) (n b : Nat) (s : State), s.inService → 1 ≤ p.toNat → p.toNat ≤ 16 → partOn s.caddy s.eng p.toNat = true →
    s.eng.parts.length = 16 → s.eng.cond.noteStacks.length = 16 → s.eng.tempo.keys.length = 16 → b = (s.eng.part p.toNat).bank →
    (n : Int) = (((s.eng.part p.toNat).patchNo : Int) + v.toInt) % 128 →
    ∃ u, exec (.patchStep p v) s = .next u ∧ PatchSelected p b n s u) ∧
  (∀ (p m : Byte) (w goal : W32) (r : PartRec) (s : State), s.inService → 1 ≤ p.toNat → p.toNat ≤ 16 → partOn s.caddy s.eng p.toNat = true →
    r = s.eng.part p.toNat → 1 ≤ m.toNat → m.toNat ≤ 8 → driven s.caddy s.eng p.toNat (m.toNat - 1) = false →
    (goal = fClamp 0#32 one32 w → ∃ u x, exec (.macroSet p m w) s = .next u ∧ MacroAims p m goal r x s u) ∧
    (goal = fClamp 0#32 one32 (fAdd (macroGoal s.eng p.toNat (m.toNat - 1)) w) →
      ∃ u x, exec (.macroStep p m w) s = .next u ∧ MacroAims p m goal r x s u)) ∧
  ActionsActAsMessages ∧
  ∀ (p a b : Byte) (v w : W32) (s : State), s.calm → (p.toNat = 0 ∨ 16 < p.toNat ∨ partOn s.caddy s.eng p.toNat = false) →
    exec (.patchSet p a v) s = .next s ∧ exec (.patchStep p v) s = .next s ∧ exec (.macroSet p a w) s = .next s ∧
    exec (.macroStep p a w) s = .next s ∧ exec (.ccSend p a b) s = .next s ∧ exec (.note p a b) s = .next s

/-- The conductor's write `w` is due at the apply tick of the next strobe (R520). -/
def Scheduled (w : CWrite) (s u : State) : Prop :=
  u = { s with eng := { s.eng with evq := [], tempo := { s.eng.tempo with writes := s.eng.tempo.writes ++ [(s.eng.stamp + 1, w)] } } }

/-- TAP, TEMPO_STEP, TRANSPORT and COUNTER wait for the apply tick; PIN_SET, PIN_CLEAR, PIN_TOGGLE and PIN_LEVEL wait for their target
strobe where the entry is an output that has its pin; every other argument changes nothing (R520, R709, Tables 16-5 and 20-11). -/
def Obligations.CounterAndPinActions : Prop :=
  (∀ (v : W32) (s : State), s.inService → (∃ u, exec .tap s = .next u ∧ Scheduled .tap s u) ∧
    ∃ u, exec (.tempoStep v) s = .next u ∧ Scheduled (.tempoStep v.toInt) s u) ∧
  (∀ (a : Byte) (s : State), s.inService → a.toNat ≤ 2 → ∃ u, exec (.transport a) s = .next u ∧ Scheduled (.transport a.toNat) s u) ∧
  (∀ (k a : Byte) (s : State), s.inService → 8 ≤ k.toNat → k.toNat ≤ 15 → 1 ≤ a.toNat → a.toNat ≤ 4 →
    ∃ u, exec (.counter k a) s = .next u ∧ Scheduled (.act k.toNat a.toNat) s u) ∧
  (∀ (k a : Byte) (s : State), s.calm → (k.toNat < 8 ∨ 15 < k.toNat ∨ a = 0#8 ∨ 4 < a.toNat → exec (.counter k a) s = .next s) ∧
    (2 < a.toNat → exec (.transport a) s = .next s)) ∧
  (∀ (i l : Byte) (s : State), s.inService → i.toNat < 16 → (s.eng.gpAt i.toNat).taken = true → gpKind s.caddy s.eng.image i.toNat = 2 →
    exec (.pinSet i) s = .next { s with eng := { s.eng with evq := [], pinChg := s.eng.pinChg ++ [(s.eng.target, i.toNat, .set)] } } ∧
    exec (.pinClear i) s = .next { s with eng := { s.eng with evq := [], pinChg := s.eng.pinChg ++ [(s.eng.target, i.toNat, .clear)] } } ∧
    exec (.pinToggle i) s = .next { s with eng := { s.eng with evq := [], pinChg := s.eng.pinChg ++ [(s.eng.target, i.toNat, .toggle)] } } ∧
    exec (.pinLevel i l) s = .next { s with eng := { s.eng with
      evq := [], pinChg := s.eng.pinChg ++ [(s.eng.target, i.toNat, .level l.toNat)] } }) ∧
  ∀ (i l : Byte) (s : State), s.calm →
    (15 < i.toNat ∨ (s.eng.gpAt i.toNat).taken = false ∨ gpKind s.caddy s.eng.image i.toNat ≠ 2) →
    exec (.pinSet i) s = .next s ∧ exec (.pinClear i) s = .next s ∧ exec (.pinToggle i) s = .next s ∧ exec (.pinLevel i l) s = .next s

/-! ## The datapath (09, Table 9-4) -/

/-- Cell `i` becomes `k` and no other cell changes; a parity error that was met raises CELL_PARITY for a cell with a role or under test while the
engine runs (R399, R944), and nothing else happens. -/
def CellBecomes (i : Nat) (k : Cell) (bad : Bool) (s t : State) : Prop :=
  t.cellAt i = k ∧ (∀ j, j ≠ i → t.cellAt j = s.cellAt j) ∧ t.cells.length = 192 ∧
    (bad = false ∨ s.running = false → t.eng = s.eng) ∧
    (bad = true → s.quiet → holdsRole s.eng i = true ∨ (s.eng.cellAt i).testing.isSome = true →
      i ∈ t.eng.health.parity ∧ t.eng.faults = (s.eng.later.raise 0x1A).faults ∧
        t.eng = { s.eng with
          evq := [], faults := t.eng.faults, pins := t.eng.pins, health := { s.eng.health with parity := t.eng.health.parity } }) ∧
    (bad = true → s.running = true → s.calm → holdsRole s.eng i = false → (s.eng.cellAt i).testing = none → t.eng = s.eng.later) ∧
    t = { s with cells := t.cells, dnew := t.dnew, eng := t.eng }

/-- Cell `i` computes: it holds a role or is under test, or no role has been given out yet (R878, R944, log 25). -/
def CellComputes (s : State) (i : Nat) : Prop :=
  (s.eng.cellAt i).testing.isSome = true ∨ (s.eng.cellAt i).role ≠ .fenced ∧ (s.eng.cellAt i).role ≠ .spare

/-- A fenced cell, and a spare that is not under test, do nothing at `c` (R878, R944). -/
def IdleCellRests (c : Instr) (i : Nat) : Prop := ∀ s : State, ¬ CellComputes s i → exec c s = .next s

/-- `c` puts `f` of the accumulator and the operand words into the accumulator of cell `i`; the address registers that the operands use step
on, and a word found with wrong parity is read as +0. -/
def AccResult (c : Instr) (i : Fin 192) (xs : List Opd) (f : Dy → List W32 → Dy) : Prop :=
  IdleCellRests c i.val ∧ ∀ (s : State) (k : Cell), CellComputes s i.val → s.cells.length = 192 → k = prepAll xs (s.cellAt i.val) →
    ∃ t, exec c s = .next t ∧ t.dnew = s.dnew ∧
      CellBecomes i.val (postAll xs { markAll xs k with acc := f k.acc (xs.map (opdRead k)) }) (xs.any (opdBad k)) s t

/-- `c` puts `f` of the accumulator and the operand words into the result place `d` of cell `i`. -/
def WordResult (c : Instr) (i : Fin 192) (xs : List Opd) (d : Dst) (f : Dy → List W32 → W32) : Prop :=
  IdleCellRests c i.val ∧ ∀ (s : State) (k : Cell), CellComputes s i.val → s.cells.length = 192 → k = dstPrep d (prepAll xs (s.cellAt i.val)) →
    ∃ t, exec c s = .next t ∧ t.dnew = s.dnew ∧
      CellBecomes i.val (dstPost d (postAll xs (dstWrite (f k.acc (xs.map (opdRead k))) d (markAll xs k)))) (xs.any (opdBad k)) s t

/-- CLR, LDA, MUL, MAC, MSU and ADD: the new accumulator (R371 to R373, Table 9-4). How an operand names its word is the model's choice (log
27), as is what a word of wrong parity reads as until it is written again (log 28), and an address beyond the end of a memory (log 90). -/
def Obligations.AccumulatorOperations : Prop :=
  ∀ (i : Fin 192) (x y : Opd), AccResult (.clr i) i [] (fun _ _ => ⟨0, 0⟩) ∧
    AccResult (.lda i x) i [x] (fun _ v => (f32Val (nth 0#32 v 0)).norm32) ∧
    AccResult (.mul i x y) i [x, y] (fun _ v => roundA ((f32Val (nth 0#32 v 0)).mul (f32Val (nth 0#32 v 1)))) ∧
    AccResult (.mac i x y) i [x, y] (fun a v => roundA (a.add ((f32Val (nth 0#32 v 0)).mul (f32Val (nth 0#32 v 1))))) ∧
    AccResult (.msu i x y) i [x, y] (fun a v => roundA (a.add ((f32Val (nth 0#32 v 0)).mul (f32Val (nth 0#32 v 1))).neg)) ∧
    AccResult (.add i x) i [x] (fun a v => roundA (a.add (f32Val (nth 0#32 v 0))))

/-- The operations that give a word (R375 to R382, Table 9-4). The place of the result, the shadow bank and the output word where none is
named, and the parity of the operands are the model's choice (logs 27, 28); STX without a place leaves its word in the output word (log 30);
a sample of two bytes at the last byte of the caddy takes its second byte from the first one, which is the model's choice (log 90). -/
def Obligations.WordOperations : Prop :=
  ∀ (i : Fin 192) (x y z : Opd) (d : Dst), WordResult (.stf i d) i [] d (fun a _ => roundF a) ∧
    WordResult (.neg i x d) i [x] d (fun _ v => fNeg (nth 0#32 v 0)) ∧ WordResult (.abs i x d) i [x] d (fun _ v => fAbs (nth 0#32 v 0)) ∧
    WordResult (.min i x y d) i [x, y] d (fun _ v => fMin (nth 0#32 v 0) (nth 0#32 v 1)) ∧
    WordResult (.max i x y d) i [x, y] d (fun _ v => fMax (nth 0#32 v 0) (nth 0#32 v 1)) ∧
    WordResult (.sel i x y z d) i [x, y, z] d (fun _ v => if (f32Val (nth 0#32 v 0)).m < 0 then fRead (nth 0#32 v 2) else fRead (nth 0#32 v 1)) ∧
    WordResult (.norm i x d) i [x] d (fun _ v => fNorm (nth 0#32 v 0)) ∧ WordResult (.exp i x d) i [x] d (fun _ v => fExp (nth 0#32 v 0)) ∧
    WordResult (.scale i x y d) i [x, y] d (fun _ v => fScale (nth 0#32 v 0) (nth 0#32 v 1)) ∧
    WordResult (.itf i x d) i [x] d (fun _ v => roundF ⟨(nth 0#32 v 0).toInt, 0⟩) ∧
    WordResult (.ftp i x d) i [x] d (fun _ v => fFtp (nth 0#32 v 0)) ∧
    WordResult (.padd i x y d) i [x, y] d (fun _ v => BitVec.ofNat 32 ((nth 0#32 v 0).toNat + (nth 0#32 v 1).toNat)) ∧
    WordResult (.stx i none) i [] .out (fun a _ => (accStx a).setWidth 32) ∧
    (∀ a : Fin 4194304, IdleCellRests (.ld16 i a d) i.val ∧ IdleCellRests (.ldu i a d) i.val) ∧
    ∀ (a : Fin 4194304) (s : State) (k : Cell), CellComputes s i.val → s.cells.length = 192 → k = dstPrep d (s.cellAt i.val) →
      (∃ t, exec (.ld16 i a d) s = .next t ∧ t.dnew = s.dnew ∧ CellBecomes i.val (dstPost d (dstWrite (ld16 (BitVec.ofNat 16
        ((caddyGet s.caddy a.val).toNat + 256 * (caddyGet s.caddy ((a.val + 1) % 4194304)).toNat))) d k)) false s t) ∧
      ∃ t, exec (.ldu i a d) s = .next t ∧ t.dnew = s.dnew ∧
        CellBecomes i.val (dstPost d (dstWrite (ldu (caddyGet s.caddy a.val)) d k)) false s t

/-- PHS, STX and LDX: the index to the result place and the fraction to the second output word (log 29); a store waits for the next frame,
and the cell that stored reads its own store at once (R380, R384, R385, R411). That delay memory bears no parity and reads +0 until it is
written is log 28, the shadow bank log 27. An address register beyond the end of a memory counts modulo its size, which is the model's
choice (log 90). -/
def OutputWordsAndDelayMemory : Prop :=
  (∀ (i : Fin 192) (p : Opd) (n : Fin 17) (q : Place) (x : Spot) (a : Option AddrInit) (d : Dst),
    IdleCellRests (.phs i p n d) i.val ∧ IdleCellRests (.stx i (some q)) i.val ∧ IdleCellRests (.ldx i x a d) i.val) ∧
  (∀ (i : Fin 192) (p : Opd) (n : Fin 17) (d : Dst) (s : State) (k : Cell), CellComputes s i.val → s.cells.length = 192 →
     k = dstPrep d (prepAll [p] (s.cellAt i.val)) →
    ∃ t, exec (.phs i p n d) s = .next t ∧ t.dnew = s.dnew ∧ CellBecomes i.val (dstPost d (opdPost p (dstWrite
      (BitVec.ofNat 32 ((opdRead k p).toNat / 2 ^ (32 - n.val))) d { opdMark p k with out2 := phsFrac (opdRead k p) n.val }))) (opdBad k p) s t) ∧
  (∀ (i : Fin 192) (p : Place) (s : State) (k : Cell), CellComputes s i.val → s.cells.length = 192 → k = placePrep p (s.cellAt i.val) →
    ∃ t, exec (.stx i (some p)) s = .next t ∧ t.dnew = s.dnew ++ [(i.val, placeAddr k p, accStx k.acc)] ∧
      delayRead t i.val (placeAddr k p) = accStx k.acc ∧ t.eng.dmem = s.eng.dmem ∧ CellBecomes i.val (placePost p k) false s t) ∧
  (∀ (i : Fin 192) (q : Spot) (a : Option AddrInit) (p : Place) (d : Dst) (s : State) (k : Cell), CellComputes s i.val →
    s.cells.length = 192 → p = q.place a → k = dstPrep d (placePrep p (s.cellAt i.val)) →
    ∃ t, exec (.ldx i q a d) s = .next t ∧ t.dnew = s.dnew ∧ CellBecomes i.val (dstPost d (placePost p (dstWrite
      (ldx (delayRead s i.val (placeAddr k p))) d k))) false s t) ∧
  (∀ (i a : Nat) (s : State), (∀ x ∈ s.dnew, x.1 = i → x.2.1 ≠ a) → delayRead s i a = delayGet s.eng.dmem a) ∧
  ∀ (k : Cell) (j : Fin 8) (i : Option AddrInit) (post : Bool), placeAddr k (.via j i post) < 262144

/-- A word whose parity bit is wrong reads as +0, now and until it is written again; a write brings the right parity (R399). -/
def WrongParityReadsAsZero : Prop :=
  (∀ (k : Cell) (x : Opd), opdBad k x = true → opdRead k x = 0#32 ∧ opdBad (opdMark x k) x = true) ∧
  (∀ (k : Cell) (i : Fin 1024), opdBad (opdMark (.mem i true) k) (.mem i false) = true) ∧
  (∀ (k : Cell) (i : Fin 64), opdBad (opdMark (.reg i true) k) (.reg i false) = true) ∧
  (∀ (k : Cell) (i : Fin 1024) (w : W32), k.ok = true → opdBad (dstWrite w (.mem i) k) (.mem i false) = false ∧
    opdRead (dstWrite w (.mem i) k) (.mem i false) = w) ∧
  ∀ (k : Cell) (i : Fin 64) (w : W32), k.ok = true → opdBad (dstWrite w (.reg i) k).swap (.reg i false) = false ∧
    opdRead (dstWrite w (.reg i) k).swap (.reg i false) = w

/-- The phase split, delay memory and the parity bits of the words. -/
def Obligations.PhaseAndDelayMemory : Prop := OutputWordsAndDelayMemory ∧ WrongParityReadsAsZero

/-- Rounding is to the nearest value, ties upwards (R368); ADD is MAC with 1.0 (R373); STX is the limited integer of R376, so that a 24-bit word
loaded and stored is the same word, but for -1; an address stays in its window (R383). -/
def Obligations.RoundingAndWindows : Prop :=
  (∀ (p : Nat) (a : Dy), 0 < p → a.m ≠ 0 → ∃ d : Nat, (a.round p).e = a.e + d ∧ (a.round p).m.natAbs ≤ 2 ^ p ∧
    (0 < d → 2 ^ (p - 1) ≤ (a.round p).m.natAbs) ∧ -(2 ^ d : Int) < 2 * ((a.round p).m * 2 ^ d - a.m) ∧
    2 * ((a.round p).m * 2 ^ d - a.m) ≤ 2 ^ d ∧ (a.m.natAbs < 2 ^ p → a.round p = a)) ∧
  (∀ (a : Dy) (x : W32), accAdd a x = accMac a x one32) ∧
  (∀ a : Dy, (accStx a).toInt = max (-8388607) (min 8388607 (a.toRat * 8388608 + 1 / 2).floor)) ∧
  (∀ n : W24, accStx (accLda (ldx n)) = if n = 0x800000#24 then 0x800001#24 else n) ∧
  ∀ (b len a : Nat) (s : Int), 1 ≤ len → b ≤ postModify b len a s ∧ postModify b len a s < b + len ∧
    (len : Int) ∣ (postModify b len a s : Int) - a - s

/-- The values of the words that the operations give (R366, R371, R379 to R381, R405, Table 9-3). -/
def Obligations.WordsHaveTheirValues : Prop :=
  (∀ x y : W32, f32Rat (fNeg x) = -f32Rat x ∧ f32Rat (fAbs x) = (if f32Rat x < 0 then -f32Rat x else f32Rat x) ∧
    f32Rat (fMin x y) = (if f32Rat y < f32Rat x then f32Rat y else f32Rat x) ∧
    f32Rat (fMax x y) = if f32Rat x < f32Rat y then f32Rat y else f32Rat x) ∧
  (∀ n : W24, f32Rat (ldx n) = (n.toInt : Rat) / 8388608) ∧ (∀ n : W16, f32Rat (ld16 n) = (n.toInt : Rat) / 32768) ∧
  (∀ u : Byte, f32Rat (ldu u) = (muLaw u : Rat) / 32768) ∧
  (∀ k : Int, k.natAbs ≤ 16777216 → f32Rat (fItf k) = k) ∧
  (∀ x : W32, ((fFtp x).toNat : Int) = max 0 (min 4294967295 (f32Rat x * 4294967296 + 1 / 2).floor)) ∧
  (∀ (p : W32) (k : Nat), k ≤ 16 → phsIndex p k * 2 ^ (32 - k) ≤ p.toNat ∧ p.toNat < (phsIndex p k + 1) * 2 ^ (32 - k) ∧
    f32Rat (phsFrac p k) = ((p.toNat * 2 ^ k % 4294967296 / 512 : Nat) : Rat) / 8388608) ∧
  (∀ (x : W32) (v : Dy) (q : Rat), v = f32Val x → q = f32Rat (fNorm x) → v.m ≠ 0 → f32Rat (fExp x) = v.expo ∧
    q = Dy.toRat ⟨v.m, v.e - v.expo⟩ ∧ (1 ≤ q ∧ q < 2 ∨ -2 < q ∧ q ≤ -1)) ∧
  ∀ x : W32, (f32Val x).m = 0 → f32Rat (fExp x) = -128 ∧ fNorm x = 0#32 ∧ fNeg x = 0#32
end

