-- ==== Sys2Proof/Laws/Dispatch.lean ====
section
/-! SUPPORT. The meaning that each command is dispatched to. -/

namespace Sys2Proof.Machine

theorem exec_resetNFall (s : State) :
    exec (.resetNFall) s = execResetNFall s := rfl
theorem exec_resetNRise (mode : BitVec 3) (s : State) :
    exec (.resetNRise mode) s = execResetNRise mode s := rfl
theorem exec_powerOnResetRelease (mode : BitVec 3) (s : State) :
    exec (.powerOnResetRelease mode) s = execPowerOnResetRelease mode s := rfl
theorem exec_detectorTrip (rail : Rail) (s : State) :
    exec (.detectorTrip rail) s = execDetectorTrip rail s := rfl
theorem exec_vbakSwitchover (s : State) :
    exec (.vbakSwitchover) s = execVbakSwitchover s := rfl
theorem exec_vioSwitchover (s : State) :
    exec (.vioSwitchover) s = execVioSwitchover s := rfl
theorem exec_holdLatchSet (s : State) :
    exec (.holdLatchSet) s = execHoldLatchSet s := rfl
theorem exec_crystalValid (t : Nat) (s : State) :
    exec (.crystalValid t) s = execCrystalValid t s := rfl
theorem exec_crystalLoss (t : Nat) (s : State) :
    exec (.crystalLoss t) s = execCrystalLoss t s := rfl
theorem exec_internalReset (t : Nat) (s : State) :
    exec (.internalReset t) s = execInternalReset t s := rfl
theorem exec_internalResetRelease (mode : BitVec 3) (s : State) :
    exec (.internalResetRelease mode) s = execInternalResetRelease mode s := rfl
theorem exec_crystalStartTimeout (t : Nat) (s : State) :
    exec (.crystalStartTimeout t) s = execCrystalStartTimeout t s := rfl
theorem exec_loopStart (t : Nat) (s : State) :
    exec (.loopStart t) s = execLoopStart t s := rfl
theorem exec_lockDeclared (t : Nat) (s : State) :
    exec (.lockDeclared t) s = execLockDeclared t s := rfl
theorem exec_unlockDeclared (t : Nat) (s : State) :
    exec (.unlockDeclared t) s = execUnlockDeclared t s := rfl
theorem exec_loopLockTimeout (t : Nat) (s : State) :
    exec (.loopLockTimeout t) s = execLoopLockTimeout t s := rfl
theorem exec_relockAccepted (t : Nat) (s : State) :
    exec (.relockAccepted t) s = execRelockAccepted t s := rfl
theorem exec_retuneStart (s : State) :
    exec (.retuneStart) s = execRetuneStart s := rfl
theorem exec_unmuteStart (s : State) :
    exec (.unmuteStart) s = execUnmuteStart s := rfl
theorem exec_trackingSettled (s : State) :
    exec (.trackingSettled) s = execTrackingSettled s := rfl
theorem exec_frameStrobe (s : State) :
    exec (.frameStrobe) s = execFrameStrobe s := rfl
theorem exec_counterTick (pins : BitVec 16) (s : State) :
    exec (.counterTick pins) s = execCounterTick pins s := rfl
theorem exec_frameComputationStart (bad : List BadWord) (s : State) :
    exec (.frameComputationStart bad) s = execFrameComputationStart bad s := rfl
theorem exec_frameComputationComplete (s : State) :
    exec (.frameComputationComplete) s = execFrameComputationComplete s := rfl
theorem exec_strapBurst (a b c d : StrapVolts) (refs : StrapRefs) (s : State) :
    exec (.strapBurst a b c d refs) s = execStrapBurst a b c d refs s := rfl
theorem exec_directoryCheck (s : State) :
    exec (.directoryCheck) s = execDirectoryCheck s := rfl
theorem exec_thermosStep (s : State) :
    exec (.thermosStep) s = execThermosStep s := rfl
theorem exec_meadowSelfTest (romOk dmemOk : Bool) (failed : List (Fin 192)) (s : State) :
    exec (.meadowSelfTest romOk dmemOk failed) s = execMeadowSelfTest romOk dmemOk failed s := rfl
theorem exec_delayLineCalibration (first second : ChannelCal) (s : State) :
    exec (.delayLineCalibration first second) s = execDelayLineCalibration first second s := rfl
theorem exec_contentScan (s : State) :
    exec (.contentScan) s = execContentScan s := rfl
theorem exec_partPreparation (s : State) :
    exec (.partPreparation) s = execPartPreparation s := rfl
theorem exec_steepLate (t : Nat) (s : State) :
    exec (.steepLate t) s = execSteepLate t s := rfl
theorem exec_chimeEnd (s : State) :
    exec (.chimeEnd) s = execChimeEnd s := rfl
theorem exec_conversionComplete (vin : Int) (vref : Nat) (s : State) :
    exec (.conversionComplete vin vref) s = execConversionComplete vin vref s := rfl
theorem exec_receiverArmed (t : Nat) (s : State) :
    exec (.receiverArmed t) s = execReceiverArmed t s := rfl
theorem exec_syncCharacter (edges : List Nat) (stopHigh : Bool) (s : State) :
    exec (.syncCharacter edges stopHigh) s = execSyncCharacter edges stopHigh s := rfl
theorem exec_syncCandidateRejected (c : SyncCandidate) (s : State) :
    exec (.syncCandidateRejected c) s = execSyncCandidateRejected c s := rfl
theorem exec_framingError (t rise : Nat) (s : State) :
    exec (.framingError t rise) s = execFramingError t rise s := rfl
theorem exec_idleLine (t : Nat) (s : State) :
    exec (.idleLine t) s = execIdleLine t s := rfl
theorem exec_noteOff (ch : BitVec 4) (note vel : BitVec 7) (t : Nat) (s : State) :
    exec (.noteOff ch note vel t) s = execNoteOff ch note vel t s := rfl
theorem exec_noteOn (ch : BitVec 4) (note vel : BitVec 7) (t : Nat) (s : State) :
    exec (.noteOn ch note vel t) s = execNoteOn ch note vel t s := rfl
theorem exec_polyKeyPressure (ch : BitVec 4) (note p : BitVec 7) (t : Nat) (s : State) :
    exec (.polyKeyPressure ch note p t) s = execPolyKeyPressure ch note p t s := rfl
theorem exec_controlChange (ch : BitVec 4) (cc v : BitVec 7) (t : Nat) (s : State) :
    exec (.controlChange ch cc v t) s = execControlChange ch cc v t s := rfl
theorem exec_bankSelectMsb (ch : BitVec 4) (v : BitVec 7) (t : Nat) (s : State) :
    exec (.bankSelectMsb ch v t) s = execBankSelectMsb ch v t s := rfl
theorem exec_dataEntryMsb (ch : BitVec 4) (v : BitVec 7) (t : Nat) (s : State) :
    exec (.dataEntryMsb ch v t) s = execDataEntryMsb ch v t s := rfl
theorem exec_dataEntryLsb (ch : BitVec 4) (v : BitVec 7) (t : Nat) (s : State) :
    exec (.dataEntryLsb ch v t) s = execDataEntryLsb ch v t s := rfl
theorem exec_partVolume (ch : BitVec 4) (v : BitVec 7) (t : Nat) (s : State) :
    exec (.partVolume ch v t) s = execPartVolume ch v t s := rfl
theorem exec_pan (ch : BitVec 4) (v : BitVec 7) (t : Nat) (s : State) :
    exec (.pan ch v t) s = execPan ch v t s := rfl
theorem exec_macros (ch : BitVec 4) (m : Fin 8) (v : BitVec 7) (t : Nat) (s : State) :
    exec (.macros ch m v t) s = execMacros ch m v t s := rfl
theorem exec_sustain (ch : BitVec 4) (v : BitVec 7) (t : Nat) (s : State) :
    exec (.sustain ch v t) s = execSustain ch v t s := rfl
theorem exec_portamento (ch : BitVec 4) (v : BitVec 7) (t : Nat) (s : State) :
    exec (.portamento ch v t) s = execPortamento ch v t s := rfl
theorem exec_sostenuto (ch : BitVec 4) (v : BitVec 7) (t : Nat) (s : State) :
    exec (.sostenuto ch v t) s = execSostenuto ch v t s := rfl
theorem exec_rpnSelect (ch : BitVec 4) (msb : Bool) (v : BitVec 7) (t : Nat) (s : State) :
    exec (.rpnSelect ch msb v t) s = execRpnSelect ch msb v t s := rfl
theorem exec_nrpnSelect (ch : BitVec 4) (msb : Bool) (v : BitVec 7) (t : Nat) (s : State) :
    exec (.nrpnSelect ch msb v t) s = execNrpnSelect ch msb v t s := rfl
theorem exec_allSoundOff (ch : BitVec 4) (v : BitVec 7) (t : Nat) (s : State) :
    exec (.allSoundOff ch v t) s = execAllSoundOff ch v t s := rfl
theorem exec_resetAllControllers (ch : BitVec 4) (v : BitVec 7) (t : Nat) (s : State) :
    exec (.resetAllControllers ch v t) s = execResetAllControllers ch v t s := rfl
theorem exec_allNotesOff (ch : BitVec 4) (k : Fin 5) (v : BitVec 7) (t : Nat) (s : State) :
    exec (.allNotesOff ch k v t) s = execAllNotesOff ch k v t s := rfl
theorem exec_programChange (ch : BitVec 4) (p : BitVec 7) (t : Nat) (s : State) :
    exec (.programChange ch p t) s = execProgramChange ch p t s := rfl
theorem exec_channelPressure (ch : BitVec 4) (p : BitVec 7) (t : Nat) (s : State) :
    exec (.channelPressure ch p t) s = execChannelPressure ch p t s := rfl
theorem exec_pitchBend (ch : BitVec 4) (lsb msb : BitVec 7) (t : Nat) (s : State) :
    exec (.pitchBend ch lsb msb t) s = execPitchBend ch lsb msb t s := rfl
theorem exec_systemExclusive (data : List (BitVec 7)) (t : Nat) (s : State) :
    exec (.systemExclusive data t) s = execSystemExclusive data t s := rfl
theorem exec_systemCommon (k : Fin 7) (data : List (BitVec 7)) (t : Nat) (s : State) :
    exec (.systemCommon k data t) s = execSystemCommon k data t s := rfl
theorem exec_timingClock (t : Nat) (s : State) :
    exec (.timingClock t) s = execTimingClock t s := rfl
theorem exec_startPlay (t : Nat) (s : State) :
    exec (.startPlay t) s = execStartPlay t s := rfl
theorem exec_continuePlay (t : Nat) (s : State) :
    exec (.continuePlay t) s = execContinuePlay t s := rfl
theorem exec_stopPlay (t : Nat) (s : State) :
    exec (.stopPlay t) s = execStopPlay t s := rfl
theorem exec_ignoredRealTime (k : Fin 4) (t : Nat) (s : State) :
    exec (.ignoredRealTime k t) s = execIgnoredRealTime k t s := rfl
theorem exec_externalModeExit (t : Nat) (s : State) :
    exec (.externalModeExit t) s = execExternalModeExit t s := rfl
theorem exec_regularFrame (s : State) :
    exec (.regularFrame) s = execRegularFrame s := rfl
theorem exec_faultFrame (s : State) :
    exec (.faultFrame) s = execFaultFrame s := rfl
theorem exec_statusLoadFrame (s : State) :
    exec (.statusLoadFrame) s = execStatusLoadFrame s := rfl
theorem exec_inputLock (edges : List BckEdge) (s : State) :
    exec (.inputLock edges) s = execInputLock edges s := rfl
theorem exec_decisionInstant (edges : List BckEdge) (t : Nat) (s : State) :
    exec (.decisionInstant edges t) s = execDecisionInstant edges t s := rfl
theorem exec_switchingPeriod (ch : Fin 4) (rises falls : List Nat) (flips : TapFlips) (s : State) :
    exec (.switchingPeriod ch rises falls flips) s = execSwitchingPeriod ch rises falls flips s := rfl
theorem exec_routineCycle (ch : Fin 4) (found : RoutineCheck) (s : State) :
    exec (.routineCycle ch found) s = execRoutineCycle ch found s := rfl
theorem exec_lineCalibrationComplete (ch : Fin 4) (codes : List (BitVec 6)) (found : LineCheck) (s : State) :
    exec (.lineCalibrationComplete ch codes found) s = execLineCalibrationComplete ch codes found s := rfl
theorem exec_trimStart (ch : Fin 4) (s : State) :
    exec (.trimStart ch) s = execTrimStart ch s := rfl
theorem exec_trimEnd (ch : Fin 4) (offset : Int) (s : State) :
    exec (.trimEnd ch offset) s = execTrimEnd ch offset s := rfl
theorem exec_trimRequestTimeout (ch : Fin 4) (s : State) :
    exec (.trimRequestTimeout ch) s = execTrimRequestTimeout ch s := rfl
theorem exec_pulseDistanceCodeFrame (runs : List IrRun) (t : Nat) (s : State) :
    exec (.pulseDistanceCodeFrame runs t) s = execPulseDistanceCodeFrame runs t s := rfl
theorem exec_pulseDistanceRepeatFrame (runs : List IrRun) (t : Nat) (s : State) :
    exec (.pulseDistanceRepeatFrame runs t) s = execPulseDistanceRepeatFrame runs t s := rfl
theorem exec_biPhaseFrame (runs : List IrRun) (t : Nat) (s : State) :
    exec (.biPhaseFrame runs t) s = execBiPhaseFrame runs t s := rfl
theorem exec_chainTimeout (t : Nat) (s : State) :
    exec (.chainTimeout t) s = execChainTimeout t s := rfl
theorem exec_flood (a : IrActivity) (s : State) :
    exec (.flood a) s = execFlood a s := rfl
theorem exec_floodEnd (a : IrIdle) (s : State) :
    exec (.floodEnd a) s = execFloodEnd a s := rfl
theorem exec_debounceChange (entry : Fin 16) (s : State) :
    exec (.debounceChange entry) s = execDebounceChange entry s := rfl
theorem exec_switchRepeat (entry : Fin 16) (s : State) :
    exec (.switchRepeat entry) s = execSwitchRepeat entry s := rfl
theorem exec_switchLong (entry : Fin 16) (s : State) :
    exec (.switchLong entry) s = execSwitchLong entry s := rfl
theorem exec_rotation (s : State) :
    exec (.rotation) s = execRotation s := rfl
theorem exec_roleMove (cell : Fin 192) (s : State) :
    exec (.roleMove cell) s = execRoleMove cell s := rfl
theorem exec_cellTestComplete (cell : Fin 192) (reads : List TestRead) (s : State) :
    exec (.cellTestComplete cell reads) s = execCellTestComplete cell reads s := rfl
theorem exec_loadInfo (h : LoadHead) (s : State) :
    exec (.loadInfo h) s = execLoadInfo h s := rfl
theorem exec_loadOpen (h : LoadHead) (mode : Byte) (tag : W32) (failRow : Option Nat) (s : State) :
    exec (.loadOpen h mode tag failRow) s = execLoadOpen h mode tag failRow s := rfl
theorem exec_loadSection (h : LoadHead) (id : W16) (length scrc : W32) (s : State) :
    exec (.loadSection h id length scrc) s = execLoadSection h id length scrc s := rfl
theorem exec_loadData (h : LoadHead) (offset : W32) (bytes : List Byte) (failRow : Option Nat) (s : State) :
    exec (.loadData h offset bytes failRow) s = execLoadData h offset bytes failRow s := rfl
theorem exec_loadSeal (h : LoadHead) (failRow : Option Nat) (s : State) :
    exec (.loadSeal h failRow) s = execLoadSeal h failRow s := rfl
theorem exec_loadClose (h : LoadHead) (failRow : Option Nat) (s : State) :
    exec (.loadClose h failRow) s = execLoadClose h failRow s := rfl
theorem exec_loadAbort (h : LoadHead) (s : State) :
    exec (.loadAbort h) s = execLoadAbort h s := rfl
theorem exec_acknowledgement (s : State) :
    exec (.acknowledgement) s = execAcknowledgement s := rfl
theorem exec_volumeStep (value : W32) (s : State) :
    exec (.volumeStep value) s = execVolumeStep value s := rfl
theorem exec_volumeSet (value : W32) (s : State) :
    exec (.volumeSet value) s = execVolumeSet value s := rfl
theorem exec_muteToggle (s : State) :
    exec (.muteToggle) s = execMuteToggle s := rfl
theorem exec_mute (s : State) :
    exec (.mute) s = execMute s := rfl
theorem exec_unmute (s : State) :
    exec (.unmute) s = execUnmute s := rfl
theorem exec_sourceSet (value : W32) (s : State) :
    exec (.sourceSet value) s = execSourceSet value s := rfl
theorem exec_sourceCycle (s : State) :
    exec (.sourceCycle) s = execSourceCycle s := rfl
theorem exec_profileSet (value : W32) (s : State) :
    exec (.profileSet value) s = execProfileSet value s := rfl
theorem exec_profileStep (value : W32) (s : State) :
    exec (.profileStep value) s = execProfileStep value s := rfl
theorem exec_patchSet (part bank : Byte) (value : W32) (s : State) :
    exec (.patchSet part bank value) s = execPatchSet part bank value s := rfl
theorem exec_patchStep (part : Byte) (value : W32) (s : State) :
    exec (.patchStep part value) s = execPatchStep part value s := rfl
theorem exec_macroSet (part m : Byte) (value : W32) (s : State) :
    exec (.macroSet part m value) s = execMacroSet part m value s := rfl
theorem exec_macroStep (part m : Byte) (value : W32) (s : State) :
    exec (.macroStep part m value) s = execMacroStep part m value s := rfl
theorem exec_tap (s : State) :
    exec (.tap) s = execTap s := rfl
theorem exec_tempoStep (value : W32) (s : State) :
    exec (.tempoStep value) s = execTempoStep value s := rfl
theorem exec_transport (arg : Byte) (s : State) :
    exec (.transport arg) s = execTransport arg s := rfl
theorem exec_ccSend (part cc v : Byte) (s : State) :
    exec (.ccSend part cc v) s = execCcSend part cc v s := rfl
theorem exec_note (part note vel : Byte) (s : State) :
    exec (.note part note vel) s = execNote part note vel s := rfl
theorem exec_counter (n action : Byte) (s : State) :
    exec (.counter n action) s = execCounter n action s := rfl
theorem exec_pinSet (entry : Byte) (s : State) :
    exec (.pinSet entry) s = execPinSet entry s := rfl
theorem exec_pinClear (entry : Byte) (s : State) :
    exec (.pinClear entry) s = execPinClear entry s := rfl
theorem exec_pinToggle (entry : Byte) (s : State) :
    exec (.pinToggle entry) s = execPinToggle entry s := rfl
theorem exec_pinLevel (entry level : Byte) (s : State) :
    exec (.pinLevel entry level) s = execPinLevel entry level s := rfl
theorem exec_duck (which arg : Byte) (s : State) :
    exec (.duck which arg) s = execDuck which arg s := rfl
theorem exec_wetSet (effect : Byte) (value : W32) (s : State) :
    exec (.wetSet effect value) s = execWetSet effect value s := rfl
theorem exec_clr (cell : Fin 192) (s : State) :
    exec (.clr cell) s = execClr cell s := rfl
theorem exec_lda (cell : Fin 192) (x : Opd) (s : State) :
    exec (.lda cell x) s = execLda cell x s := rfl
theorem exec_mul (cell : Fin 192) (x y : Opd) (s : State) :
    exec (.mul cell x y) s = execMul cell x y s := rfl
theorem exec_mac (cell : Fin 192) (x y : Opd) (s : State) :
    exec (.mac cell x y) s = execMac cell x y s := rfl
theorem exec_msu (cell : Fin 192) (x y : Opd) (s : State) :
    exec (.msu cell x y) s = execMsu cell x y s := rfl
theorem exec_add (cell : Fin 192) (x : Opd) (s : State) :
    exec (.add cell x) s = execAdd cell x s := rfl
theorem exec_stf (cell : Fin 192) (d : Dst) (s : State) :
    exec (.stf cell d) s = execStf cell d s := rfl
theorem exec_stx (cell : Fin 192) (d : Option Place) (s : State) :
    exec (.stx cell d) s = execStx cell d s := rfl
theorem exec_neg (cell : Fin 192) (x : Opd) (d : Dst) (s : State) :
    exec (.neg cell x d) s = execNeg cell x d s := rfl
theorem exec_abs (cell : Fin 192) (x : Opd) (d : Dst) (s : State) :
    exec (.abs cell x d) s = execAbs cell x d s := rfl
theorem exec_min (cell : Fin 192) (x y : Opd) (d : Dst) (s : State) :
    exec (.min cell x y d) s = execMin cell x y d s := rfl
theorem exec_max (cell : Fin 192) (x y : Opd) (d : Dst) (s : State) :
    exec (.max cell x y d) s = execMax cell x y d s := rfl
theorem exec_sel (cell : Fin 192) (c x y : Opd) (d : Dst) (s : State) :
    exec (.sel cell c x y d) s = execSel cell c x y d s := rfl
theorem exec_norm (cell : Fin 192) (x : Opd) (d : Dst) (s : State) :
    exec (.norm cell x d) s = execNorm cell x d s := rfl
theorem exec_exp (cell : Fin 192) (x : Opd) (d : Dst) (s : State) :
    exec (.exp cell x d) s = execExp cell x d s := rfl
theorem exec_scale (cell : Fin 192) (x n : Opd) (d : Dst) (s : State) :
    exec (.scale cell x n d) s = execScale cell x n d s := rfl
theorem exec_itf (cell : Fin 192) (k : Opd) (d : Dst) (s : State) :
    exec (.itf cell k d) s = execItf cell k d s := rfl
theorem exec_ftp (cell : Fin 192) (x : Opd) (d : Dst) (s : State) :
    exec (.ftp cell x d) s = execFtp cell x d s := rfl
theorem exec_padd (cell : Fin 192) (p q : Opd) (d : Dst) (s : State) :
    exec (.padd cell p q d) s = execPadd cell p q d s := rfl
theorem exec_phs (cell : Fin 192) (p : Opd) (k : Fin 17) (d : Dst) (s : State) :
    exec (.phs cell p k d) s = execPhs cell p k d s := rfl
theorem exec_ldx (cell : Fin 192) (p : Spot) (init : Option AddrInit) (d : Dst) (s : State) :
    exec (.ldx cell p init d) s = execLdx cell p init d s := rfl
theorem exec_ld16 (cell : Fin 192) (byte : Fin 4194304) (d : Dst) (s : State) :
    exec (.ld16 cell byte d) s = execLd16 cell byte d s := rfl
theorem exec_ldu (cell : Fin 192) (byte : Fin 4194304) (d : Dst) (s : State) :
    exec (.ldu cell byte d) s = execLdu cell byte d s := rfl
theorem exec_character (samples : BitVec 10) (times : CharTimes) (s : State) :
    exec (.character samples times) s = execCharacter samples times s := rfl
theorem exec_trackingSettledEnd (s : State) :
    exec (.trackingSettledEnd) s = execTrackingSettledEnd s := rfl

end Sys2Proof.Machine
end

