-- ==== Sys2Proof/Laws/State.lean ====
section
/-! SUPPORT. What each update of the engine leaves as it was, field by field. -/

namespace Sys2Proof.Machine

/-! `Engine.raise` changes faults, evq, pins. -/

@[simp] theorem Engine.raise_now (k : Nat) (e : Engine) : (e.raise k).now = e.now := rfl
@[simp] theorem Engine.raise_free (k : Nat) (e : Engine) : (e.raise k).free = e.free := rfl
@[simp] theorem Engine.raise_mode (k : Nat) (e : Engine) : (e.raise k).mode = e.mode := rfl
@[simp] theorem Engine.raise_modePins (k : Nat) (e : Engine) : (e.raise k).modePins = e.modePins := rfl
@[simp] theorem Engine.raise_straps (k : Nat) (e : Engine) : (e.raise k).straps = e.straps := rfl
@[simp] theorem Engine.raise_kettle (k : Nat) (e : Engine) : (e.raise k).kettle = e.kettle := rfl
@[simp] theorem Engine.raise_strobe (k : Nat) (e : Engine) : (e.raise k).strobe = e.strobe := rfl
@[simp] theorem Engine.raise_steep (k : Nat) (e : Engine) : (e.raise k).steep = e.steep := rfl
@[simp] theorem Engine.raise_image (k : Nat) (e : Engine) : (e.raise k).image = e.image := rfl
@[simp] theorem Engine.raise_dials (k : Nat) (e : Engine) : (e.raise k).dials = e.dials := rfl
@[simp] theorem Engine.raise_link (k : Nat) (e : Engine) : (e.raise k).link = e.link := rfl
@[simp] theorem Engine.raise_input (k : Nat) (e : Engine) : (e.raise k).input = e.input := rfl
@[simp] theorem Engine.raise_health (k : Nat) (e : Engine) : (e.raise k).health = e.health := rfl
@[simp] theorem Engine.raise_load (k : Nat) (e : Engine) : (e.raise k).load = e.load := rfl
@[simp] theorem Engine.raise_due (k : Nat) (e : Engine) : (e.raise k).due = e.due := rfl
@[simp] theorem Engine.raise_cond (k : Nat) (e : Engine) : (e.raise k).cond = e.cond := rfl
@[simp] theorem Engine.raise_parts (k : Nat) (e : Engine) : (e.raise k).parts = e.parts := rfl
@[simp] theorem Engine.raise_partChg (k : Nat) (e : Engine) : (e.raise k).partChg = e.partChg := rfl
@[simp] theorem Engine.raise_live (k : Nat) (e : Engine) : (e.raise k).live = e.live := rfl
@[simp] theorem Engine.raise_voices (k : Nat) (e : Engine) : (e.raise k).voices = e.voices := rfl
@[simp] theorem Engine.raise_gp (k : Nat) (e : Engine) : (e.raise k).gp = e.gp := rfl
@[simp] theorem Engine.raise_pinChg (k : Nat) (e : Engine) : (e.raise k).pinChg = e.pinChg := rfl
@[simp] theorem Engine.raise_ir (k : Nat) (e : Engine) : (e.raise k).ir = e.ir := rfl
@[simp] theorem Engine.raise_tempo (k : Nat) (e : Engine) : (e.raise k).tempo = e.tempo := rfl
@[simp] theorem Engine.raise_mix (k : Nat) (e : Engine) : (e.raise k).mix = e.mix := rfl
@[simp] theorem Engine.raise_mixChg (k : Nat) (e : Engine) : (e.raise k).mixChg = e.mixChg := rfl
@[simp] theorem Engine.raise_mixLive (k : Nat) (e : Engine) : (e.raise k).mixLive = e.mixLive := rfl
@[simp] theorem Engine.raise_prof (k : Nat) (e : Engine) : (e.raise k).prof = e.prof := rfl
@[simp] theorem Engine.raise_rs (k : Nat) (e : Engine) : (e.raise k).rs = e.rs := rfl
@[simp] theorem Engine.raise_rsOld (k : Nat) (e : Engine) : (e.raise k).rsOld = e.rsOld := rfl
@[simp] theorem Engine.raise_gin (k : Nat) (e : Engine) : (e.raise k).gin = e.gin := rfl
@[simp] theorem Engine.raise_bus (k : Nat) (e : Engine) : (e.raise k).bus = e.bus := rfl
@[simp] theorem Engine.raise_fifo (k : Nat) (e : Engine) : (e.raise k).fifo = e.fifo := rfl
@[simp] theorem Engine.raise_out (k : Nat) (e : Engine) : (e.raise k).out = e.out := rfl
@[simp] theorem Engine.raise_dmem (k : Nat) (e : Engine) : (e.raise k).dmem = e.dmem := rfl
@[simp] theorem Engine.raise_dmemNext (k : Nat) (e : Engine) : (e.raise k).dmemNext = e.dmemNext := rfl
@[simp] theorem Engine.raise_tjChg (k : Nat) (e : Engine) : (e.raise k).tjChg = e.tjChg := rfl
@[simp] theorem Engine.raise_tjLive (k : Nat) (e : Engine) : (e.raise k).tjLive = e.tjLive := rfl
@[simp] theorem Engine.raise_mixFam (k : Nat) (e : Engine) : (e.raise k).mixFam = e.mixFam := rfl

/-! `Engine.emit` changes evq. -/

@[simp] theorem Engine.emit_now (v : Ev) (e : Engine) : (e.emit v).now = e.now := rfl
@[simp] theorem Engine.emit_free (v : Ev) (e : Engine) : (e.emit v).free = e.free := rfl
@[simp] theorem Engine.emit_mode (v : Ev) (e : Engine) : (e.emit v).mode = e.mode := rfl
@[simp] theorem Engine.emit_modePins (v : Ev) (e : Engine) : (e.emit v).modePins = e.modePins := rfl
@[simp] theorem Engine.emit_straps (v : Ev) (e : Engine) : (e.emit v).straps = e.straps := rfl
@[simp] theorem Engine.emit_kettle (v : Ev) (e : Engine) : (e.emit v).kettle = e.kettle := rfl
@[simp] theorem Engine.emit_strobe (v : Ev) (e : Engine) : (e.emit v).strobe = e.strobe := rfl
@[simp] theorem Engine.emit_steep (v : Ev) (e : Engine) : (e.emit v).steep = e.steep := rfl
@[simp] theorem Engine.emit_image (v : Ev) (e : Engine) : (e.emit v).image = e.image := rfl
@[simp] theorem Engine.emit_dials (v : Ev) (e : Engine) : (e.emit v).dials = e.dials := rfl
@[simp] theorem Engine.emit_link (v : Ev) (e : Engine) : (e.emit v).link = e.link := rfl
@[simp] theorem Engine.emit_input (v : Ev) (e : Engine) : (e.emit v).input = e.input := rfl
@[simp] theorem Engine.emit_faults (v : Ev) (e : Engine) : (e.emit v).faults = e.faults := rfl
@[simp] theorem Engine.emit_health (v : Ev) (e : Engine) : (e.emit v).health = e.health := rfl
@[simp] theorem Engine.emit_load (v : Ev) (e : Engine) : (e.emit v).load = e.load := rfl
@[simp] theorem Engine.emit_due (v : Ev) (e : Engine) : (e.emit v).due = e.due := rfl
@[simp] theorem Engine.emit_cond (v : Ev) (e : Engine) : (e.emit v).cond = e.cond := rfl
@[simp] theorem Engine.emit_parts (v : Ev) (e : Engine) : (e.emit v).parts = e.parts := rfl
@[simp] theorem Engine.emit_partChg (v : Ev) (e : Engine) : (e.emit v).partChg = e.partChg := rfl
@[simp] theorem Engine.emit_live (v : Ev) (e : Engine) : (e.emit v).live = e.live := rfl
@[simp] theorem Engine.emit_voices (v : Ev) (e : Engine) : (e.emit v).voices = e.voices := rfl
@[simp] theorem Engine.emit_gp (v : Ev) (e : Engine) : (e.emit v).gp = e.gp := rfl
@[simp] theorem Engine.emit_pinChg (v : Ev) (e : Engine) : (e.emit v).pinChg = e.pinChg := rfl
@[simp] theorem Engine.emit_pins (v : Ev) (e : Engine) : (e.emit v).pins = e.pins := rfl
@[simp] theorem Engine.emit_ir (v : Ev) (e : Engine) : (e.emit v).ir = e.ir := rfl
@[simp] theorem Engine.emit_tempo (v : Ev) (e : Engine) : (e.emit v).tempo = e.tempo := rfl
@[simp] theorem Engine.emit_mix (v : Ev) (e : Engine) : (e.emit v).mix = e.mix := rfl
@[simp] theorem Engine.emit_mixChg (v : Ev) (e : Engine) : (e.emit v).mixChg = e.mixChg := rfl
@[simp] theorem Engine.emit_mixLive (v : Ev) (e : Engine) : (e.emit v).mixLive = e.mixLive := rfl
@[simp] theorem Engine.emit_prof (v : Ev) (e : Engine) : (e.emit v).prof = e.prof := rfl
@[simp] theorem Engine.emit_rs (v : Ev) (e : Engine) : (e.emit v).rs = e.rs := rfl
@[simp] theorem Engine.emit_rsOld (v : Ev) (e : Engine) : (e.emit v).rsOld = e.rsOld := rfl
@[simp] theorem Engine.emit_gin (v : Ev) (e : Engine) : (e.emit v).gin = e.gin := rfl
@[simp] theorem Engine.emit_bus (v : Ev) (e : Engine) : (e.emit v).bus = e.bus := rfl
@[simp] theorem Engine.emit_fifo (v : Ev) (e : Engine) : (e.emit v).fifo = e.fifo := rfl
@[simp] theorem Engine.emit_out (v : Ev) (e : Engine) : (e.emit v).out = e.out := rfl
@[simp] theorem Engine.emit_dmem (v : Ev) (e : Engine) : (e.emit v).dmem = e.dmem := rfl
@[simp] theorem Engine.emit_dmemNext (v : Ev) (e : Engine) : (e.emit v).dmemNext = e.dmemNext := rfl
@[simp] theorem Engine.emit_tjChg (v : Ev) (e : Engine) : (e.emit v).tjChg = e.tjChg := rfl
@[simp] theorem Engine.emit_tjLive (v : Ev) (e : Engine) : (e.emit v).tjLive = e.tjLive := rfl
@[simp] theorem Engine.emit_mixFam (v : Ev) (e : Engine) : (e.emit v).mixFam = e.mixFam := rfl

/-! `Engine.withCond` changes cond. -/

@[simp] theorem Engine.withCond_now (f : Cond → Cond) (e : Engine) : (e.withCond f).now = e.now := rfl
@[simp] theorem Engine.withCond_free (f : Cond → Cond) (e : Engine) : (e.withCond f).free = e.free := rfl
@[simp] theorem Engine.withCond_mode (f : Cond → Cond) (e : Engine) : (e.withCond f).mode = e.mode := rfl
@[simp] theorem Engine.withCond_modePins (f : Cond → Cond) (e : Engine) : (e.withCond f).modePins = e.modePins := rfl
@[simp] theorem Engine.withCond_straps (f : Cond → Cond) (e : Engine) : (e.withCond f).straps = e.straps := rfl
@[simp] theorem Engine.withCond_kettle (f : Cond → Cond) (e : Engine) : (e.withCond f).kettle = e.kettle := rfl
@[simp] theorem Engine.withCond_strobe (f : Cond → Cond) (e : Engine) : (e.withCond f).strobe = e.strobe := rfl
@[simp] theorem Engine.withCond_steep (f : Cond → Cond) (e : Engine) : (e.withCond f).steep = e.steep := rfl
@[simp] theorem Engine.withCond_image (f : Cond → Cond) (e : Engine) : (e.withCond f).image = e.image := rfl
@[simp] theorem Engine.withCond_dials (f : Cond → Cond) (e : Engine) : (e.withCond f).dials = e.dials := rfl
@[simp] theorem Engine.withCond_link (f : Cond → Cond) (e : Engine) : (e.withCond f).link = e.link := rfl
@[simp] theorem Engine.withCond_input (f : Cond → Cond) (e : Engine) : (e.withCond f).input = e.input := rfl
@[simp] theorem Engine.withCond_faults (f : Cond → Cond) (e : Engine) : (e.withCond f).faults = e.faults := rfl
@[simp] theorem Engine.withCond_health (f : Cond → Cond) (e : Engine) : (e.withCond f).health = e.health := rfl
@[simp] theorem Engine.withCond_load (f : Cond → Cond) (e : Engine) : (e.withCond f).load = e.load := rfl
@[simp] theorem Engine.withCond_due (f : Cond → Cond) (e : Engine) : (e.withCond f).due = e.due := rfl
@[simp] theorem Engine.withCond_evq (f : Cond → Cond) (e : Engine) : (e.withCond f).evq = e.evq := rfl
@[simp] theorem Engine.withCond_parts (f : Cond → Cond) (e : Engine) : (e.withCond f).parts = e.parts := rfl
@[simp] theorem Engine.withCond_partChg (f : Cond → Cond) (e : Engine) : (e.withCond f).partChg = e.partChg := rfl
@[simp] theorem Engine.withCond_live (f : Cond → Cond) (e : Engine) : (e.withCond f).live = e.live := rfl
@[simp] theorem Engine.withCond_voices (f : Cond → Cond) (e : Engine) : (e.withCond f).voices = e.voices := rfl
@[simp] theorem Engine.withCond_gp (f : Cond → Cond) (e : Engine) : (e.withCond f).gp = e.gp := rfl
@[simp] theorem Engine.withCond_pinChg (f : Cond → Cond) (e : Engine) : (e.withCond f).pinChg = e.pinChg := rfl
@[simp] theorem Engine.withCond_pins (f : Cond → Cond) (e : Engine) : (e.withCond f).pins = e.pins := rfl
@[simp] theorem Engine.withCond_ir (f : Cond → Cond) (e : Engine) : (e.withCond f).ir = e.ir := rfl
@[simp] theorem Engine.withCond_tempo (f : Cond → Cond) (e : Engine) : (e.withCond f).tempo = e.tempo := rfl
@[simp] theorem Engine.withCond_mix (f : Cond → Cond) (e : Engine) : (e.withCond f).mix = e.mix := rfl
@[simp] theorem Engine.withCond_mixChg (f : Cond → Cond) (e : Engine) : (e.withCond f).mixChg = e.mixChg := rfl
@[simp] theorem Engine.withCond_mixLive (f : Cond → Cond) (e : Engine) : (e.withCond f).mixLive = e.mixLive := rfl
@[simp] theorem Engine.withCond_prof (f : Cond → Cond) (e : Engine) : (e.withCond f).prof = e.prof := rfl
@[simp] theorem Engine.withCond_rs (f : Cond → Cond) (e : Engine) : (e.withCond f).rs = e.rs := rfl
@[simp] theorem Engine.withCond_rsOld (f : Cond → Cond) (e : Engine) : (e.withCond f).rsOld = e.rsOld := rfl
@[simp] theorem Engine.withCond_gin (f : Cond → Cond) (e : Engine) : (e.withCond f).gin = e.gin := rfl
@[simp] theorem Engine.withCond_bus (f : Cond → Cond) (e : Engine) : (e.withCond f).bus = e.bus := rfl
@[simp] theorem Engine.withCond_fifo (f : Cond → Cond) (e : Engine) : (e.withCond f).fifo = e.fifo := rfl
@[simp] theorem Engine.withCond_out (f : Cond → Cond) (e : Engine) : (e.withCond f).out = e.out := rfl
@[simp] theorem Engine.withCond_dmem (f : Cond → Cond) (e : Engine) : (e.withCond f).dmem = e.dmem := rfl
@[simp] theorem Engine.withCond_dmemNext (f : Cond → Cond) (e : Engine) : (e.withCond f).dmemNext = e.dmemNext := rfl
@[simp] theorem Engine.withCond_tjChg (f : Cond → Cond) (e : Engine) : (e.withCond f).tjChg = e.tjChg := rfl
@[simp] theorem Engine.withCond_tjLive (f : Cond → Cond) (e : Engine) : (e.withCond f).tjLive = e.tjLive := rfl
@[simp] theorem Engine.withCond_mixFam (f : Cond → Cond) (e : Engine) : (e.withCond f).mixFam = e.mixFam := rfl

/-! `Engine.onKettle` changes kettle. -/

@[simp] theorem Engine.onKettle_now (f : Kettle → Kettle) (e : Engine) : (e.onKettle f).now = e.now := rfl
@[simp] theorem Engine.onKettle_free (f : Kettle → Kettle) (e : Engine) : (e.onKettle f).free = e.free := rfl
@[simp] theorem Engine.onKettle_mode (f : Kettle → Kettle) (e : Engine) : (e.onKettle f).mode = e.mode := rfl
@[simp] theorem Engine.onKettle_modePins (f : Kettle → Kettle) (e : Engine) : (e.onKettle f).modePins = e.modePins := rfl
@[simp] theorem Engine.onKettle_straps (f : Kettle → Kettle) (e : Engine) : (e.onKettle f).straps = e.straps := rfl
@[simp] theorem Engine.onKettle_strobe (f : Kettle → Kettle) (e : Engine) : (e.onKettle f).strobe = e.strobe := rfl
@[simp] theorem Engine.onKettle_steep (f : Kettle → Kettle) (e : Engine) : (e.onKettle f).steep = e.steep := rfl
@[simp] theorem Engine.onKettle_image (f : Kettle → Kettle) (e : Engine) : (e.onKettle f).image = e.image := rfl
@[simp] theorem Engine.onKettle_dials (f : Kettle → Kettle) (e : Engine) : (e.onKettle f).dials = e.dials := rfl
@[simp] theorem Engine.onKettle_link (f : Kettle → Kettle) (e : Engine) : (e.onKettle f).link = e.link := rfl
@[simp] theorem Engine.onKettle_input (f : Kettle → Kettle) (e : Engine) : (e.onKettle f).input = e.input := rfl
@[simp] theorem Engine.onKettle_faults (f : Kettle → Kettle) (e : Engine) : (e.onKettle f).faults = e.faults := rfl
@[simp] theorem Engine.onKettle_health (f : Kettle → Kettle) (e : Engine) : (e.onKettle f).health = e.health := rfl
@[simp] theorem Engine.onKettle_load (f : Kettle → Kettle) (e : Engine) : (e.onKettle f).load = e.load := rfl
@[simp] theorem Engine.onKettle_due (f : Kettle → Kettle) (e : Engine) : (e.onKettle f).due = e.due := rfl
@[simp] theorem Engine.onKettle_evq (f : Kettle → Kettle) (e : Engine) : (e.onKettle f).evq = e.evq := rfl
@[simp] theorem Engine.onKettle_cond (f : Kettle → Kettle) (e : Engine) : (e.onKettle f).cond = e.cond := rfl
@[simp] theorem Engine.onKettle_parts (f : Kettle → Kettle) (e : Engine) : (e.onKettle f).parts = e.parts := rfl
@[simp] theorem Engine.onKettle_partChg (f : Kettle → Kettle) (e : Engine) : (e.onKettle f).partChg = e.partChg := rfl
@[simp] theorem Engine.onKettle_live (f : Kettle → Kettle) (e : Engine) : (e.onKettle f).live = e.live := rfl
@[simp] theorem Engine.onKettle_voices (f : Kettle → Kettle) (e : Engine) : (e.onKettle f).voices = e.voices := rfl
@[simp] theorem Engine.onKettle_gp (f : Kettle → Kettle) (e : Engine) : (e.onKettle f).gp = e.gp := rfl
@[simp] theorem Engine.onKettle_pinChg (f : Kettle → Kettle) (e : Engine) : (e.onKettle f).pinChg = e.pinChg := rfl
@[simp] theorem Engine.onKettle_pins (f : Kettle → Kettle) (e : Engine) : (e.onKettle f).pins = e.pins := rfl
@[simp] theorem Engine.onKettle_ir (f : Kettle → Kettle) (e : Engine) : (e.onKettle f).ir = e.ir := rfl
@[simp] theorem Engine.onKettle_tempo (f : Kettle → Kettle) (e : Engine) : (e.onKettle f).tempo = e.tempo := rfl
@[simp] theorem Engine.onKettle_mix (f : Kettle → Kettle) (e : Engine) : (e.onKettle f).mix = e.mix := rfl
@[simp] theorem Engine.onKettle_mixChg (f : Kettle → Kettle) (e : Engine) : (e.onKettle f).mixChg = e.mixChg := rfl
@[simp] theorem Engine.onKettle_mixLive (f : Kettle → Kettle) (e : Engine) : (e.onKettle f).mixLive = e.mixLive := rfl
@[simp] theorem Engine.onKettle_prof (f : Kettle → Kettle) (e : Engine) : (e.onKettle f).prof = e.prof := rfl
@[simp] theorem Engine.onKettle_rs (f : Kettle → Kettle) (e : Engine) : (e.onKettle f).rs = e.rs := rfl
@[simp] theorem Engine.onKettle_rsOld (f : Kettle → Kettle) (e : Engine) : (e.onKettle f).rsOld = e.rsOld := rfl
@[simp] theorem Engine.onKettle_gin (f : Kettle → Kettle) (e : Engine) : (e.onKettle f).gin = e.gin := rfl
@[simp] theorem Engine.onKettle_bus (f : Kettle → Kettle) (e : Engine) : (e.onKettle f).bus = e.bus := rfl
@[simp] theorem Engine.onKettle_fifo (f : Kettle → Kettle) (e : Engine) : (e.onKettle f).fifo = e.fifo := rfl
@[simp] theorem Engine.onKettle_out (f : Kettle → Kettle) (e : Engine) : (e.onKettle f).out = e.out := rfl
@[simp] theorem Engine.onKettle_dmem (f : Kettle → Kettle) (e : Engine) : (e.onKettle f).dmem = e.dmem := rfl
@[simp] theorem Engine.onKettle_dmemNext (f : Kettle → Kettle) (e : Engine) : (e.onKettle f).dmemNext = e.dmemNext := rfl
@[simp] theorem Engine.onKettle_tjChg (f : Kettle → Kettle) (e : Engine) : (e.onKettle f).tjChg = e.tjChg := rfl
@[simp] theorem Engine.onKettle_tjLive (f : Kettle → Kettle) (e : Engine) : (e.onKettle f).tjLive = e.tjLive := rfl
@[simp] theorem Engine.onKettle_mixFam (f : Kettle → Kettle) (e : Engine) : (e.onKettle f).mixFam = e.mixFam := rfl

/-! `Engine.onSteep` changes steep. -/

@[simp] theorem Engine.onSteep_now (f : Steep → Steep) (e : Engine) : (e.onSteep f).now = e.now := rfl
@[simp] theorem Engine.onSteep_free (f : Steep → Steep) (e : Engine) : (e.onSteep f).free = e.free := rfl
@[simp] theorem Engine.onSteep_mode (f : Steep → Steep) (e : Engine) : (e.onSteep f).mode = e.mode := rfl
@[simp] theorem Engine.onSteep_modePins (f : Steep → Steep) (e : Engine) : (e.onSteep f).modePins = e.modePins := rfl
@[simp] theorem Engine.onSteep_straps (f : Steep → Steep) (e : Engine) : (e.onSteep f).straps = e.straps := rfl
@[simp] theorem Engine.onSteep_kettle (f : Steep → Steep) (e : Engine) : (e.onSteep f).kettle = e.kettle := rfl
@[simp] theorem Engine.onSteep_strobe (f : Steep → Steep) (e : Engine) : (e.onSteep f).strobe = e.strobe := rfl
@[simp] theorem Engine.onSteep_image (f : Steep → Steep) (e : Engine) : (e.onSteep f).image = e.image := rfl
@[simp] theorem Engine.onSteep_dials (f : Steep → Steep) (e : Engine) : (e.onSteep f).dials = e.dials := rfl
@[simp] theorem Engine.onSteep_link (f : Steep → Steep) (e : Engine) : (e.onSteep f).link = e.link := rfl
@[simp] theorem Engine.onSteep_input (f : Steep → Steep) (e : Engine) : (e.onSteep f).input = e.input := rfl
@[simp] theorem Engine.onSteep_faults (f : Steep → Steep) (e : Engine) : (e.onSteep f).faults = e.faults := rfl
@[simp] theorem Engine.onSteep_health (f : Steep → Steep) (e : Engine) : (e.onSteep f).health = e.health := rfl
@[simp] theorem Engine.onSteep_load (f : Steep → Steep) (e : Engine) : (e.onSteep f).load = e.load := rfl
@[simp] theorem Engine.onSteep_due (f : Steep → Steep) (e : Engine) : (e.onSteep f).due = e.due := rfl
@[simp] theorem Engine.onSteep_evq (f : Steep → Steep) (e : Engine) : (e.onSteep f).evq = e.evq := rfl
@[simp] theorem Engine.onSteep_cond (f : Steep → Steep) (e : Engine) : (e.onSteep f).cond = e.cond := rfl
@[simp] theorem Engine.onSteep_parts (f : Steep → Steep) (e : Engine) : (e.onSteep f).parts = e.parts := rfl
@[simp] theorem Engine.onSteep_partChg (f : Steep → Steep) (e : Engine) : (e.onSteep f).partChg = e.partChg := rfl
@[simp] theorem Engine.onSteep_live (f : Steep → Steep) (e : Engine) : (e.onSteep f).live = e.live := rfl
@[simp] theorem Engine.onSteep_voices (f : Steep → Steep) (e : Engine) : (e.onSteep f).voices = e.voices := rfl
@[simp] theorem Engine.onSteep_gp (f : Steep → Steep) (e : Engine) : (e.onSteep f).gp = e.gp := rfl
@[simp] theorem Engine.onSteep_pinChg (f : Steep → Steep) (e : Engine) : (e.onSteep f).pinChg = e.pinChg := rfl
@[simp] theorem Engine.onSteep_pins (f : Steep → Steep) (e : Engine) : (e.onSteep f).pins = e.pins := rfl
@[simp] theorem Engine.onSteep_ir (f : Steep → Steep) (e : Engine) : (e.onSteep f).ir = e.ir := rfl
@[simp] theorem Engine.onSteep_tempo (f : Steep → Steep) (e : Engine) : (e.onSteep f).tempo = e.tempo := rfl
@[simp] theorem Engine.onSteep_mix (f : Steep → Steep) (e : Engine) : (e.onSteep f).mix = e.mix := rfl
@[simp] theorem Engine.onSteep_mixChg (f : Steep → Steep) (e : Engine) : (e.onSteep f).mixChg = e.mixChg := rfl
@[simp] theorem Engine.onSteep_mixLive (f : Steep → Steep) (e : Engine) : (e.onSteep f).mixLive = e.mixLive := rfl
@[simp] theorem Engine.onSteep_prof (f : Steep → Steep) (e : Engine) : (e.onSteep f).prof = e.prof := rfl
@[simp] theorem Engine.onSteep_rs (f : Steep → Steep) (e : Engine) : (e.onSteep f).rs = e.rs := rfl
@[simp] theorem Engine.onSteep_rsOld (f : Steep → Steep) (e : Engine) : (e.onSteep f).rsOld = e.rsOld := rfl
@[simp] theorem Engine.onSteep_gin (f : Steep → Steep) (e : Engine) : (e.onSteep f).gin = e.gin := rfl
@[simp] theorem Engine.onSteep_bus (f : Steep → Steep) (e : Engine) : (e.onSteep f).bus = e.bus := rfl
@[simp] theorem Engine.onSteep_fifo (f : Steep → Steep) (e : Engine) : (e.onSteep f).fifo = e.fifo := rfl
@[simp] theorem Engine.onSteep_out (f : Steep → Steep) (e : Engine) : (e.onSteep f).out = e.out := rfl
@[simp] theorem Engine.onSteep_dmem (f : Steep → Steep) (e : Engine) : (e.onSteep f).dmem = e.dmem := rfl
@[simp] theorem Engine.onSteep_dmemNext (f : Steep → Steep) (e : Engine) : (e.onSteep f).dmemNext = e.dmemNext := rfl
@[simp] theorem Engine.onSteep_tjChg (f : Steep → Steep) (e : Engine) : (e.onSteep f).tjChg = e.tjChg := rfl
@[simp] theorem Engine.onSteep_tjLive (f : Steep → Steep) (e : Engine) : (e.onSteep f).tjLive = e.tjLive := rfl
@[simp] theorem Engine.onSteep_mixFam (f : Steep → Steep) (e : Engine) : (e.onSteep f).mixFam = e.mixFam := rfl

/-! `Engine.onTempo` changes tempo. -/

@[simp] theorem Engine.onTempo_now (f : Tempo → Tempo) (e : Engine) : (e.onTempo f).now = e.now := rfl
@[simp] theorem Engine.onTempo_free (f : Tempo → Tempo) (e : Engine) : (e.onTempo f).free = e.free := rfl
@[simp] theorem Engine.onTempo_mode (f : Tempo → Tempo) (e : Engine) : (e.onTempo f).mode = e.mode := rfl
@[simp] theorem Engine.onTempo_modePins (f : Tempo → Tempo) (e : Engine) : (e.onTempo f).modePins = e.modePins := rfl
@[simp] theorem Engine.onTempo_straps (f : Tempo → Tempo) (e : Engine) : (e.onTempo f).straps = e.straps := rfl
@[simp] theorem Engine.onTempo_kettle (f : Tempo → Tempo) (e : Engine) : (e.onTempo f).kettle = e.kettle := rfl
@[simp] theorem Engine.onTempo_strobe (f : Tempo → Tempo) (e : Engine) : (e.onTempo f).strobe = e.strobe := rfl
@[simp] theorem Engine.onTempo_steep (f : Tempo → Tempo) (e : Engine) : (e.onTempo f).steep = e.steep := rfl
@[simp] theorem Engine.onTempo_image (f : Tempo → Tempo) (e : Engine) : (e.onTempo f).image = e.image := rfl
@[simp] theorem Engine.onTempo_dials (f : Tempo → Tempo) (e : Engine) : (e.onTempo f).dials = e.dials := rfl
@[simp] theorem Engine.onTempo_link (f : Tempo → Tempo) (e : Engine) : (e.onTempo f).link = e.link := rfl
@[simp] theorem Engine.onTempo_input (f : Tempo → Tempo) (e : Engine) : (e.onTempo f).input = e.input := rfl
@[simp] theorem Engine.onTempo_faults (f : Tempo → Tempo) (e : Engine) : (e.onTempo f).faults = e.faults := rfl
@[simp] theorem Engine.onTempo_health (f : Tempo → Tempo) (e : Engine) : (e.onTempo f).health = e.health := rfl
@[simp] theorem Engine.onTempo_load (f : Tempo → Tempo) (e : Engine) : (e.onTempo f).load = e.load := rfl
@[simp] theorem Engine.onTempo_due (f : Tempo → Tempo) (e : Engine) : (e.onTempo f).due = e.due := rfl
@[simp] theorem Engine.onTempo_evq (f : Tempo → Tempo) (e : Engine) : (e.onTempo f).evq = e.evq := rfl
@[simp] theorem Engine.onTempo_cond (f : Tempo → Tempo) (e : Engine) : (e.onTempo f).cond = e.cond := rfl
@[simp] theorem Engine.onTempo_parts (f : Tempo → Tempo) (e : Engine) : (e.onTempo f).parts = e.parts := rfl
@[simp] theorem Engine.onTempo_partChg (f : Tempo → Tempo) (e : Engine) : (e.onTempo f).partChg = e.partChg := rfl
@[simp] theorem Engine.onTempo_live (f : Tempo → Tempo) (e : Engine) : (e.onTempo f).live = e.live := rfl
@[simp] theorem Engine.onTempo_voices (f : Tempo → Tempo) (e : Engine) : (e.onTempo f).voices = e.voices := rfl
@[simp] theorem Engine.onTempo_gp (f : Tempo → Tempo) (e : Engine) : (e.onTempo f).gp = e.gp := rfl
@[simp] theorem Engine.onTempo_pinChg (f : Tempo → Tempo) (e : Engine) : (e.onTempo f).pinChg = e.pinChg := rfl
@[simp] theorem Engine.onTempo_pins (f : Tempo → Tempo) (e : Engine) : (e.onTempo f).pins = e.pins := rfl
@[simp] theorem Engine.onTempo_ir (f : Tempo → Tempo) (e : Engine) : (e.onTempo f).ir = e.ir := rfl
@[simp] theorem Engine.onTempo_mix (f : Tempo → Tempo) (e : Engine) : (e.onTempo f).mix = e.mix := rfl
@[simp] theorem Engine.onTempo_mixChg (f : Tempo → Tempo) (e : Engine) : (e.onTempo f).mixChg = e.mixChg := rfl
@[simp] theorem Engine.onTempo_mixLive (f : Tempo → Tempo) (e : Engine) : (e.onTempo f).mixLive = e.mixLive := rfl
@[simp] theorem Engine.onTempo_prof (f : Tempo → Tempo) (e : Engine) : (e.onTempo f).prof = e.prof := rfl
@[simp] theorem Engine.onTempo_rs (f : Tempo → Tempo) (e : Engine) : (e.onTempo f).rs = e.rs := rfl
@[simp] theorem Engine.onTempo_rsOld (f : Tempo → Tempo) (e : Engine) : (e.onTempo f).rsOld = e.rsOld := rfl
@[simp] theorem Engine.onTempo_gin (f : Tempo → Tempo) (e : Engine) : (e.onTempo f).gin = e.gin := rfl
@[simp] theorem Engine.onTempo_bus (f : Tempo → Tempo) (e : Engine) : (e.onTempo f).bus = e.bus := rfl
@[simp] theorem Engine.onTempo_fifo (f : Tempo → Tempo) (e : Engine) : (e.onTempo f).fifo = e.fifo := rfl
@[simp] theorem Engine.onTempo_out (f : Tempo → Tempo) (e : Engine) : (e.onTempo f).out = e.out := rfl
@[simp] theorem Engine.onTempo_dmem (f : Tempo → Tempo) (e : Engine) : (e.onTempo f).dmem = e.dmem := rfl
@[simp] theorem Engine.onTempo_dmemNext (f : Tempo → Tempo) (e : Engine) : (e.onTempo f).dmemNext = e.dmemNext := rfl
@[simp] theorem Engine.onTempo_tjChg (f : Tempo → Tempo) (e : Engine) : (e.onTempo f).tjChg = e.tjChg := rfl
@[simp] theorem Engine.onTempo_tjLive (f : Tempo → Tempo) (e : Engine) : (e.onTempo f).tjLive = e.tjLive := rfl
@[simp] theorem Engine.onTempo_mixFam (f : Tempo → Tempo) (e : Engine) : (e.onTempo f).mixFam = e.mixFam := rfl

/-! `Engine.onHealth` changes health. -/

@[simp] theorem Engine.onHealth_now (f : Health → Health) (e : Engine) : (e.onHealth f).now = e.now := rfl
@[simp] theorem Engine.onHealth_free (f : Health → Health) (e : Engine) : (e.onHealth f).free = e.free := rfl
@[simp] theorem Engine.onHealth_mode (f : Health → Health) (e : Engine) : (e.onHealth f).mode = e.mode := rfl
@[simp] theorem Engine.onHealth_modePins (f : Health → Health) (e : Engine) : (e.onHealth f).modePins = e.modePins := rfl
@[simp] theorem Engine.onHealth_straps (f : Health → Health) (e : Engine) : (e.onHealth f).straps = e.straps := rfl
@[simp] theorem Engine.onHealth_kettle (f : Health → Health) (e : Engine) : (e.onHealth f).kettle = e.kettle := rfl
@[simp] theorem Engine.onHealth_strobe (f : Health → Health) (e : Engine) : (e.onHealth f).strobe = e.strobe := rfl
@[simp] theorem Engine.onHealth_steep (f : Health → Health) (e : Engine) : (e.onHealth f).steep = e.steep := rfl
@[simp] theorem Engine.onHealth_image (f : Health → Health) (e : Engine) : (e.onHealth f).image = e.image := rfl
@[simp] theorem Engine.onHealth_dials (f : Health → Health) (e : Engine) : (e.onHealth f).dials = e.dials := rfl
@[simp] theorem Engine.onHealth_link (f : Health → Health) (e : Engine) : (e.onHealth f).link = e.link := rfl
@[simp] theorem Engine.onHealth_input (f : Health → Health) (e : Engine) : (e.onHealth f).input = e.input := rfl
@[simp] theorem Engine.onHealth_faults (f : Health → Health) (e : Engine) : (e.onHealth f).faults = e.faults := rfl
@[simp] theorem Engine.onHealth_load (f : Health → Health) (e : Engine) : (e.onHealth f).load = e.load := rfl
@[simp] theorem Engine.onHealth_due (f : Health → Health) (e : Engine) : (e.onHealth f).due = e.due := rfl
@[simp] theorem Engine.onHealth_evq (f : Health → Health) (e : Engine) : (e.onHealth f).evq = e.evq := rfl
@[simp] theorem Engine.onHealth_cond (f : Health → Health) (e : Engine) : (e.onHealth f).cond = e.cond := rfl
@[simp] theorem Engine.onHealth_parts (f : Health → Health) (e : Engine) : (e.onHealth f).parts = e.parts := rfl
@[simp] theorem Engine.onHealth_partChg (f : Health → Health) (e : Engine) : (e.onHealth f).partChg = e.partChg := rfl
@[simp] theorem Engine.onHealth_live (f : Health → Health) (e : Engine) : (e.onHealth f).live = e.live := rfl
@[simp] theorem Engine.onHealth_voices (f : Health → Health) (e : Engine) : (e.onHealth f).voices = e.voices := rfl
@[simp] theorem Engine.onHealth_gp (f : Health → Health) (e : Engine) : (e.onHealth f).gp = e.gp := rfl
@[simp] theorem Engine.onHealth_pinChg (f : Health → Health) (e : Engine) : (e.onHealth f).pinChg = e.pinChg := rfl
@[simp] theorem Engine.onHealth_pins (f : Health → Health) (e : Engine) : (e.onHealth f).pins = e.pins := rfl
@[simp] theorem Engine.onHealth_ir (f : Health → Health) (e : Engine) : (e.onHealth f).ir = e.ir := rfl
@[simp] theorem Engine.onHealth_tempo (f : Health → Health) (e : Engine) : (e.onHealth f).tempo = e.tempo := rfl
@[simp] theorem Engine.onHealth_mix (f : Health → Health) (e : Engine) : (e.onHealth f).mix = e.mix := rfl
@[simp] theorem Engine.onHealth_mixChg (f : Health → Health) (e : Engine) : (e.onHealth f).mixChg = e.mixChg := rfl
@[simp] theorem Engine.onHealth_mixLive (f : Health → Health) (e : Engine) : (e.onHealth f).mixLive = e.mixLive := rfl
@[simp] theorem Engine.onHealth_prof (f : Health → Health) (e : Engine) : (e.onHealth f).prof = e.prof := rfl
@[simp] theorem Engine.onHealth_rs (f : Health → Health) (e : Engine) : (e.onHealth f).rs = e.rs := rfl
@[simp] theorem Engine.onHealth_rsOld (f : Health → Health) (e : Engine) : (e.onHealth f).rsOld = e.rsOld := rfl
@[simp] theorem Engine.onHealth_gin (f : Health → Health) (e : Engine) : (e.onHealth f).gin = e.gin := rfl
@[simp] theorem Engine.onHealth_bus (f : Health → Health) (e : Engine) : (e.onHealth f).bus = e.bus := rfl
@[simp] theorem Engine.onHealth_fifo (f : Health → Health) (e : Engine) : (e.onHealth f).fifo = e.fifo := rfl
@[simp] theorem Engine.onHealth_out (f : Health → Health) (e : Engine) : (e.onHealth f).out = e.out := rfl
@[simp] theorem Engine.onHealth_dmem (f : Health → Health) (e : Engine) : (e.onHealth f).dmem = e.dmem := rfl
@[simp] theorem Engine.onHealth_dmemNext (f : Health → Health) (e : Engine) : (e.onHealth f).dmemNext = e.dmemNext := rfl
@[simp] theorem Engine.onHealth_tjChg (f : Health → Health) (e : Engine) : (e.onHealth f).tjChg = e.tjChg := rfl
@[simp] theorem Engine.onHealth_tjLive (f : Health → Health) (e : Engine) : (e.onHealth f).tjLive = e.tjLive := rfl
@[simp] theorem Engine.onHealth_mixFam (f : Health → Health) (e : Engine) : (e.onHealth f).mixFam = e.mixFam := rfl

/-! `Engine.onChan` changes out. -/

@[simp] theorem Engine.onChan_now (i : Nat) (f : Chan → Chan) (e : Engine) : (e.onChan i f).now = e.now := rfl
@[simp] theorem Engine.onChan_free (i : Nat) (f : Chan → Chan) (e : Engine) : (e.onChan i f).free = e.free := rfl
@[simp] theorem Engine.onChan_mode (i : Nat) (f : Chan → Chan) (e : Engine) : (e.onChan i f).mode = e.mode := rfl
@[simp] theorem Engine.onChan_modePins (i : Nat) (f : Chan → Chan) (e : Engine) : (e.onChan i f).modePins = e.modePins := rfl
@[simp] theorem Engine.onChan_straps (i : Nat) (f : Chan → Chan) (e : Engine) : (e.onChan i f).straps = e.straps := rfl
@[simp] theorem Engine.onChan_kettle (i : Nat) (f : Chan → Chan) (e : Engine) : (e.onChan i f).kettle = e.kettle := rfl
@[simp] theorem Engine.onChan_strobe (i : Nat) (f : Chan → Chan) (e : Engine) : (e.onChan i f).strobe = e.strobe := rfl
@[simp] theorem Engine.onChan_steep (i : Nat) (f : Chan → Chan) (e : Engine) : (e.onChan i f).steep = e.steep := rfl
@[simp] theorem Engine.onChan_image (i : Nat) (f : Chan → Chan) (e : Engine) : (e.onChan i f).image = e.image := rfl
@[simp] theorem Engine.onChan_dials (i : Nat) (f : Chan → Chan) (e : Engine) : (e.onChan i f).dials = e.dials := rfl
@[simp] theorem Engine.onChan_link (i : Nat) (f : Chan → Chan) (e : Engine) : (e.onChan i f).link = e.link := rfl
@[simp] theorem Engine.onChan_input (i : Nat) (f : Chan → Chan) (e : Engine) : (e.onChan i f).input = e.input := rfl
@[simp] theorem Engine.onChan_faults (i : Nat) (f : Chan → Chan) (e : Engine) : (e.onChan i f).faults = e.faults := rfl
@[simp] theorem Engine.onChan_health (i : Nat) (f : Chan → Chan) (e : Engine) : (e.onChan i f).health = e.health := rfl
@[simp] theorem Engine.onChan_load (i : Nat) (f : Chan → Chan) (e : Engine) : (e.onChan i f).load = e.load := rfl
@[simp] theorem Engine.onChan_due (i : Nat) (f : Chan → Chan) (e : Engine) : (e.onChan i f).due = e.due := rfl
@[simp] theorem Engine.onChan_evq (i : Nat) (f : Chan → Chan) (e : Engine) : (e.onChan i f).evq = e.evq := rfl
@[simp] theorem Engine.onChan_cond (i : Nat) (f : Chan → Chan) (e : Engine) : (e.onChan i f).cond = e.cond := rfl
@[simp] theorem Engine.onChan_parts (i : Nat) (f : Chan → Chan) (e : Engine) : (e.onChan i f).parts = e.parts := rfl
@[simp] theorem Engine.onChan_partChg (i : Nat) (f : Chan → Chan) (e : Engine) : (e.onChan i f).partChg = e.partChg := rfl
@[simp] theorem Engine.onChan_live (i : Nat) (f : Chan → Chan) (e : Engine) : (e.onChan i f).live = e.live := rfl
@[simp] theorem Engine.onChan_voices (i : Nat) (f : Chan → Chan) (e : Engine) : (e.onChan i f).voices = e.voices := rfl
@[simp] theorem Engine.onChan_gp (i : Nat) (f : Chan → Chan) (e : Engine) : (e.onChan i f).gp = e.gp := rfl
@[simp] theorem Engine.onChan_pinChg (i : Nat) (f : Chan → Chan) (e : Engine) : (e.onChan i f).pinChg = e.pinChg := rfl
@[simp] theorem Engine.onChan_pins (i : Nat) (f : Chan → Chan) (e : Engine) : (e.onChan i f).pins = e.pins := rfl
@[simp] theorem Engine.onChan_ir (i : Nat) (f : Chan → Chan) (e : Engine) : (e.onChan i f).ir = e.ir := rfl
@[simp] theorem Engine.onChan_tempo (i : Nat) (f : Chan → Chan) (e : Engine) : (e.onChan i f).tempo = e.tempo := rfl
@[simp] theorem Engine.onChan_mix (i : Nat) (f : Chan → Chan) (e : Engine) : (e.onChan i f).mix = e.mix := rfl
@[simp] theorem Engine.onChan_mixChg (i : Nat) (f : Chan → Chan) (e : Engine) : (e.onChan i f).mixChg = e.mixChg := rfl
@[simp] theorem Engine.onChan_mixLive (i : Nat) (f : Chan → Chan) (e : Engine) : (e.onChan i f).mixLive = e.mixLive := rfl
@[simp] theorem Engine.onChan_prof (i : Nat) (f : Chan → Chan) (e : Engine) : (e.onChan i f).prof = e.prof := rfl
@[simp] theorem Engine.onChan_rs (i : Nat) (f : Chan → Chan) (e : Engine) : (e.onChan i f).rs = e.rs := rfl
@[simp] theorem Engine.onChan_rsOld (i : Nat) (f : Chan → Chan) (e : Engine) : (e.onChan i f).rsOld = e.rsOld := rfl
@[simp] theorem Engine.onChan_gin (i : Nat) (f : Chan → Chan) (e : Engine) : (e.onChan i f).gin = e.gin := rfl
@[simp] theorem Engine.onChan_bus (i : Nat) (f : Chan → Chan) (e : Engine) : (e.onChan i f).bus = e.bus := rfl
@[simp] theorem Engine.onChan_fifo (i : Nat) (f : Chan → Chan) (e : Engine) : (e.onChan i f).fifo = e.fifo := rfl
@[simp] theorem Engine.onChan_dmem (i : Nat) (f : Chan → Chan) (e : Engine) : (e.onChan i f).dmem = e.dmem := rfl
@[simp] theorem Engine.onChan_dmemNext (i : Nat) (f : Chan → Chan) (e : Engine) : (e.onChan i f).dmemNext = e.dmemNext := rfl
@[simp] theorem Engine.onChan_tjChg (i : Nat) (f : Chan → Chan) (e : Engine) : (e.onChan i f).tjChg = e.tjChg := rfl
@[simp] theorem Engine.onChan_tjLive (i : Nat) (f : Chan → Chan) (e : Engine) : (e.onChan i f).tjLive = e.tjLive := rfl
@[simp] theorem Engine.onChan_mixFam (i : Nat) (f : Chan → Chan) (e : Engine) : (e.onChan i f).mixFam = e.mixFam := rfl

/-! `Engine.onChans` changes out. -/

@[simp] theorem Engine.onChans_now (f : Chan → Chan) (e : Engine) : (e.onChans f).now = e.now := rfl
@[simp] theorem Engine.onChans_free (f : Chan → Chan) (e : Engine) : (e.onChans f).free = e.free := rfl
@[simp] theorem Engine.onChans_mode (f : Chan → Chan) (e : Engine) : (e.onChans f).mode = e.mode := rfl
@[simp] theorem Engine.onChans_modePins (f : Chan → Chan) (e : Engine) : (e.onChans f).modePins = e.modePins := rfl
@[simp] theorem Engine.onChans_straps (f : Chan → Chan) (e : Engine) : (e.onChans f).straps = e.straps := rfl
@[simp] theorem Engine.onChans_kettle (f : Chan → Chan) (e : Engine) : (e.onChans f).kettle = e.kettle := rfl
@[simp] theorem Engine.onChans_strobe (f : Chan → Chan) (e : Engine) : (e.onChans f).strobe = e.strobe := rfl
@[simp] theorem Engine.onChans_steep (f : Chan → Chan) (e : Engine) : (e.onChans f).steep = e.steep := rfl
@[simp] theorem Engine.onChans_image (f : Chan → Chan) (e : Engine) : (e.onChans f).image = e.image := rfl
@[simp] theorem Engine.onChans_dials (f : Chan → Chan) (e : Engine) : (e.onChans f).dials = e.dials := rfl
@[simp] theorem Engine.onChans_link (f : Chan → Chan) (e : Engine) : (e.onChans f).link = e.link := rfl
@[simp] theorem Engine.onChans_input (f : Chan → Chan) (e : Engine) : (e.onChans f).input = e.input := rfl
@[simp] theorem Engine.onChans_faults (f : Chan → Chan) (e : Engine) : (e.onChans f).faults = e.faults := rfl
@[simp] theorem Engine.onChans_health (f : Chan → Chan) (e : Engine) : (e.onChans f).health = e.health := rfl
@[simp] theorem Engine.onChans_load (f : Chan → Chan) (e : Engine) : (e.onChans f).load = e.load := rfl
@[simp] theorem Engine.onChans_due (f : Chan → Chan) (e : Engine) : (e.onChans f).due = e.due := rfl
@[simp] theorem Engine.onChans_evq (f : Chan → Chan) (e : Engine) : (e.onChans f).evq = e.evq := rfl
@[simp] theorem Engine.onChans_cond (f : Chan → Chan) (e : Engine) : (e.onChans f).cond = e.cond := rfl
@[simp] theorem Engine.onChans_parts (f : Chan → Chan) (e : Engine) : (e.onChans f).parts = e.parts := rfl
@[simp] theorem Engine.onChans_partChg (f : Chan → Chan) (e : Engine) : (e.onChans f).partChg = e.partChg := rfl
@[simp] theorem Engine.onChans_live (f : Chan → Chan) (e : Engine) : (e.onChans f).live = e.live := rfl
@[simp] theorem Engine.onChans_voices (f : Chan → Chan) (e : Engine) : (e.onChans f).voices = e.voices := rfl
@[simp] theorem Engine.onChans_gp (f : Chan → Chan) (e : Engine) : (e.onChans f).gp = e.gp := rfl
@[simp] theorem Engine.onChans_pinChg (f : Chan → Chan) (e : Engine) : (e.onChans f).pinChg = e.pinChg := rfl
@[simp] theorem Engine.onChans_pins (f : Chan → Chan) (e : Engine) : (e.onChans f).pins = e.pins := rfl
@[simp] theorem Engine.onChans_ir (f : Chan → Chan) (e : Engine) : (e.onChans f).ir = e.ir := rfl
@[simp] theorem Engine.onChans_tempo (f : Chan → Chan) (e : Engine) : (e.onChans f).tempo = e.tempo := rfl
@[simp] theorem Engine.onChans_mix (f : Chan → Chan) (e : Engine) : (e.onChans f).mix = e.mix := rfl
@[simp] theorem Engine.onChans_mixChg (f : Chan → Chan) (e : Engine) : (e.onChans f).mixChg = e.mixChg := rfl
@[simp] theorem Engine.onChans_mixLive (f : Chan → Chan) (e : Engine) : (e.onChans f).mixLive = e.mixLive := rfl
@[simp] theorem Engine.onChans_prof (f : Chan → Chan) (e : Engine) : (e.onChans f).prof = e.prof := rfl
@[simp] theorem Engine.onChans_rs (f : Chan → Chan) (e : Engine) : (e.onChans f).rs = e.rs := rfl
@[simp] theorem Engine.onChans_rsOld (f : Chan → Chan) (e : Engine) : (e.onChans f).rsOld = e.rsOld := rfl
@[simp] theorem Engine.onChans_gin (f : Chan → Chan) (e : Engine) : (e.onChans f).gin = e.gin := rfl
@[simp] theorem Engine.onChans_bus (f : Chan → Chan) (e : Engine) : (e.onChans f).bus = e.bus := rfl
@[simp] theorem Engine.onChans_fifo (f : Chan → Chan) (e : Engine) : (e.onChans f).fifo = e.fifo := rfl
@[simp] theorem Engine.onChans_dmem (f : Chan → Chan) (e : Engine) : (e.onChans f).dmem = e.dmem := rfl
@[simp] theorem Engine.onChans_dmemNext (f : Chan → Chan) (e : Engine) : (e.onChans f).dmemNext = e.dmemNext := rfl
@[simp] theorem Engine.onChans_tjChg (f : Chan → Chan) (e : Engine) : (e.onChans f).tjChg = e.tjChg := rfl
@[simp] theorem Engine.onChans_tjLive (f : Chan → Chan) (e : Engine) : (e.onChans f).tjLive = e.tjLive := rfl
@[simp] theorem Engine.onChans_mixFam (f : Chan → Chan) (e : Engine) : (e.onChans f).mixFam = e.mixFam := rfl

/-! `Engine.at` changes now. -/

@[simp] theorem Engine.at_free (t : Nat) (e : Engine) : (e.at t).free = e.free := rfl
@[simp] theorem Engine.at_mode (t : Nat) (e : Engine) : (e.at t).mode = e.mode := rfl
@[simp] theorem Engine.at_modePins (t : Nat) (e : Engine) : (e.at t).modePins = e.modePins := rfl
@[simp] theorem Engine.at_straps (t : Nat) (e : Engine) : (e.at t).straps = e.straps := rfl
@[simp] theorem Engine.at_kettle (t : Nat) (e : Engine) : (e.at t).kettle = e.kettle := rfl
@[simp] theorem Engine.at_strobe (t : Nat) (e : Engine) : (e.at t).strobe = e.strobe := rfl
@[simp] theorem Engine.at_steep (t : Nat) (e : Engine) : (e.at t).steep = e.steep := rfl
@[simp] theorem Engine.at_image (t : Nat) (e : Engine) : (e.at t).image = e.image := rfl
@[simp] theorem Engine.at_dials (t : Nat) (e : Engine) : (e.at t).dials = e.dials := rfl
@[simp] theorem Engine.at_link (t : Nat) (e : Engine) : (e.at t).link = e.link := rfl
@[simp] theorem Engine.at_input (t : Nat) (e : Engine) : (e.at t).input = e.input := rfl
@[simp] theorem Engine.at_faults (t : Nat) (e : Engine) : (e.at t).faults = e.faults := rfl
@[simp] theorem Engine.at_health (t : Nat) (e : Engine) : (e.at t).health = e.health := rfl
@[simp] theorem Engine.at_load (t : Nat) (e : Engine) : (e.at t).load = e.load := rfl
@[simp] theorem Engine.at_due (t : Nat) (e : Engine) : (e.at t).due = e.due := rfl
@[simp] theorem Engine.at_evq (t : Nat) (e : Engine) : (e.at t).evq = e.evq := rfl
@[simp] theorem Engine.at_cond (t : Nat) (e : Engine) : (e.at t).cond = e.cond := rfl
@[simp] theorem Engine.at_parts (t : Nat) (e : Engine) : (e.at t).parts = e.parts := rfl
@[simp] theorem Engine.at_partChg (t : Nat) (e : Engine) : (e.at t).partChg = e.partChg := rfl
@[simp] theorem Engine.at_live (t : Nat) (e : Engine) : (e.at t).live = e.live := rfl
@[simp] theorem Engine.at_voices (t : Nat) (e : Engine) : (e.at t).voices = e.voices := rfl
@[simp] theorem Engine.at_gp (t : Nat) (e : Engine) : (e.at t).gp = e.gp := rfl
@[simp] theorem Engine.at_pinChg (t : Nat) (e : Engine) : (e.at t).pinChg = e.pinChg := rfl
@[simp] theorem Engine.at_pins (t : Nat) (e : Engine) : (e.at t).pins = e.pins := rfl
@[simp] theorem Engine.at_ir (t : Nat) (e : Engine) : (e.at t).ir = e.ir := rfl
@[simp] theorem Engine.at_tempo (t : Nat) (e : Engine) : (e.at t).tempo = e.tempo := rfl
@[simp] theorem Engine.at_mix (t : Nat) (e : Engine) : (e.at t).mix = e.mix := rfl
@[simp] theorem Engine.at_mixChg (t : Nat) (e : Engine) : (e.at t).mixChg = e.mixChg := rfl
@[simp] theorem Engine.at_mixLive (t : Nat) (e : Engine) : (e.at t).mixLive = e.mixLive := rfl
@[simp] theorem Engine.at_prof (t : Nat) (e : Engine) : (e.at t).prof = e.prof := rfl
@[simp] theorem Engine.at_rs (t : Nat) (e : Engine) : (e.at t).rs = e.rs := rfl
@[simp] theorem Engine.at_rsOld (t : Nat) (e : Engine) : (e.at t).rsOld = e.rsOld := rfl
@[simp] theorem Engine.at_gin (t : Nat) (e : Engine) : (e.at t).gin = e.gin := rfl
@[simp] theorem Engine.at_bus (t : Nat) (e : Engine) : (e.at t).bus = e.bus := rfl
@[simp] theorem Engine.at_fifo (t : Nat) (e : Engine) : (e.at t).fifo = e.fifo := rfl
@[simp] theorem Engine.at_out (t : Nat) (e : Engine) : (e.at t).out = e.out := rfl
@[simp] theorem Engine.at_dmem (t : Nat) (e : Engine) : (e.at t).dmem = e.dmem := rfl
@[simp] theorem Engine.at_dmemNext (t : Nat) (e : Engine) : (e.at t).dmemNext = e.dmemNext := rfl
@[simp] theorem Engine.at_tjChg (t : Nat) (e : Engine) : (e.at t).tjChg = e.tjChg := rfl
@[simp] theorem Engine.at_tjLive (t : Nat) (e : Engine) : (e.at t).tjLive = e.tjLive := rfl
@[simp] theorem Engine.at_mixFam (t : Nat) (e : Engine) : (e.at t).mixFam = e.mixFam := rfl

/-! `Engine.seen` changes now. -/

@[simp] theorem Engine.seen_free (t : Time) (e : Engine) : (e.seen t).free = e.free := rfl
@[simp] theorem Engine.seen_mode (t : Time) (e : Engine) : (e.seen t).mode = e.mode := rfl
@[simp] theorem Engine.seen_modePins (t : Time) (e : Engine) : (e.seen t).modePins = e.modePins := rfl
@[simp] theorem Engine.seen_straps (t : Time) (e : Engine) : (e.seen t).straps = e.straps := rfl
@[simp] theorem Engine.seen_kettle (t : Time) (e : Engine) : (e.seen t).kettle = e.kettle := rfl
@[simp] theorem Engine.seen_strobe (t : Time) (e : Engine) : (e.seen t).strobe = e.strobe := rfl
@[simp] theorem Engine.seen_steep (t : Time) (e : Engine) : (e.seen t).steep = e.steep := rfl
@[simp] theorem Engine.seen_image (t : Time) (e : Engine) : (e.seen t).image = e.image := rfl
@[simp] theorem Engine.seen_dials (t : Time) (e : Engine) : (e.seen t).dials = e.dials := rfl
@[simp] theorem Engine.seen_link (t : Time) (e : Engine) : (e.seen t).link = e.link := rfl
@[simp] theorem Engine.seen_input (t : Time) (e : Engine) : (e.seen t).input = e.input := rfl
@[simp] theorem Engine.seen_faults (t : Time) (e : Engine) : (e.seen t).faults = e.faults := rfl
@[simp] theorem Engine.seen_health (t : Time) (e : Engine) : (e.seen t).health = e.health := rfl
@[simp] theorem Engine.seen_load (t : Time) (e : Engine) : (e.seen t).load = e.load := rfl
@[simp] theorem Engine.seen_due (t : Time) (e : Engine) : (e.seen t).due = e.due := rfl
@[simp] theorem Engine.seen_evq (t : Time) (e : Engine) : (e.seen t).evq = e.evq := rfl
@[simp] theorem Engine.seen_cond (t : Time) (e : Engine) : (e.seen t).cond = e.cond := rfl
@[simp] theorem Engine.seen_parts (t : Time) (e : Engine) : (e.seen t).parts = e.parts := rfl
@[simp] theorem Engine.seen_partChg (t : Time) (e : Engine) : (e.seen t).partChg = e.partChg := rfl
@[simp] theorem Engine.seen_live (t : Time) (e : Engine) : (e.seen t).live = e.live := rfl
@[simp] theorem Engine.seen_voices (t : Time) (e : Engine) : (e.seen t).voices = e.voices := rfl
@[simp] theorem Engine.seen_gp (t : Time) (e : Engine) : (e.seen t).gp = e.gp := rfl
@[simp] theorem Engine.seen_pinChg (t : Time) (e : Engine) : (e.seen t).pinChg = e.pinChg := rfl
@[simp] theorem Engine.seen_pins (t : Time) (e : Engine) : (e.seen t).pins = e.pins := rfl
@[simp] theorem Engine.seen_ir (t : Time) (e : Engine) : (e.seen t).ir = e.ir := rfl
@[simp] theorem Engine.seen_tempo (t : Time) (e : Engine) : (e.seen t).tempo = e.tempo := rfl
@[simp] theorem Engine.seen_mix (t : Time) (e : Engine) : (e.seen t).mix = e.mix := rfl
@[simp] theorem Engine.seen_mixChg (t : Time) (e : Engine) : (e.seen t).mixChg = e.mixChg := rfl
@[simp] theorem Engine.seen_mixLive (t : Time) (e : Engine) : (e.seen t).mixLive = e.mixLive := rfl
@[simp] theorem Engine.seen_prof (t : Time) (e : Engine) : (e.seen t).prof = e.prof := rfl
@[simp] theorem Engine.seen_rs (t : Time) (e : Engine) : (e.seen t).rs = e.rs := rfl
@[simp] theorem Engine.seen_rsOld (t : Time) (e : Engine) : (e.seen t).rsOld = e.rsOld := rfl
@[simp] theorem Engine.seen_gin (t : Time) (e : Engine) : (e.seen t).gin = e.gin := rfl
@[simp] theorem Engine.seen_bus (t : Time) (e : Engine) : (e.seen t).bus = e.bus := rfl
@[simp] theorem Engine.seen_fifo (t : Time) (e : Engine) : (e.seen t).fifo = e.fifo := rfl
@[simp] theorem Engine.seen_out (t : Time) (e : Engine) : (e.seen t).out = e.out := rfl
@[simp] theorem Engine.seen_dmem (t : Time) (e : Engine) : (e.seen t).dmem = e.dmem := rfl
@[simp] theorem Engine.seen_dmemNext (t : Time) (e : Engine) : (e.seen t).dmemNext = e.dmemNext := rfl
@[simp] theorem Engine.seen_tjChg (t : Time) (e : Engine) : (e.seen t).tjChg = e.tjChg := rfl
@[simp] theorem Engine.seen_tjLive (t : Time) (e : Engine) : (e.seen t).tjLive = e.tjLive := rfl
@[simp] theorem Engine.seen_mixFam (t : Time) (e : Engine) : (e.seen t).mixFam = e.mixFam := rfl

/-! `Engine.setPart` changes parts, partChg. -/

@[simp] theorem Engine.setPart_now (p : Nat) (r : PartRec) (e : Engine) : (e.setPart p r).now = e.now := rfl
@[simp] theorem Engine.setPart_free (p : Nat) (r : PartRec) (e : Engine) : (e.setPart p r).free = e.free := rfl
@[simp] theorem Engine.setPart_mode (p : Nat) (r : PartRec) (e : Engine) : (e.setPart p r).mode = e.mode := rfl
@[simp] theorem Engine.setPart_modePins (p : Nat) (r : PartRec) (e : Engine) : (e.setPart p r).modePins = e.modePins := rfl
@[simp] theorem Engine.setPart_straps (p : Nat) (r : PartRec) (e : Engine) : (e.setPart p r).straps = e.straps := rfl
@[simp] theorem Engine.setPart_kettle (p : Nat) (r : PartRec) (e : Engine) : (e.setPart p r).kettle = e.kettle := rfl
@[simp] theorem Engine.setPart_strobe (p : Nat) (r : PartRec) (e : Engine) : (e.setPart p r).strobe = e.strobe := rfl
@[simp] theorem Engine.setPart_steep (p : Nat) (r : PartRec) (e : Engine) : (e.setPart p r).steep = e.steep := rfl
@[simp] theorem Engine.setPart_image (p : Nat) (r : PartRec) (e : Engine) : (e.setPart p r).image = e.image := rfl
@[simp] theorem Engine.setPart_dials (p : Nat) (r : PartRec) (e : Engine) : (e.setPart p r).dials = e.dials := rfl
@[simp] theorem Engine.setPart_link (p : Nat) (r : PartRec) (e : Engine) : (e.setPart p r).link = e.link := rfl
@[simp] theorem Engine.setPart_input (p : Nat) (r : PartRec) (e : Engine) : (e.setPart p r).input = e.input := rfl
@[simp] theorem Engine.setPart_faults (p : Nat) (r : PartRec) (e : Engine) : (e.setPart p r).faults = e.faults := rfl
@[simp] theorem Engine.setPart_health (p : Nat) (r : PartRec) (e : Engine) : (e.setPart p r).health = e.health := rfl
@[simp] theorem Engine.setPart_load (p : Nat) (r : PartRec) (e : Engine) : (e.setPart p r).load = e.load := rfl
@[simp] theorem Engine.setPart_due (p : Nat) (r : PartRec) (e : Engine) : (e.setPart p r).due = e.due := rfl
@[simp] theorem Engine.setPart_evq (p : Nat) (r : PartRec) (e : Engine) : (e.setPart p r).evq = e.evq := rfl
@[simp] theorem Engine.setPart_cond (p : Nat) (r : PartRec) (e : Engine) : (e.setPart p r).cond = e.cond := rfl
@[simp] theorem Engine.setPart_live (p : Nat) (r : PartRec) (e : Engine) : (e.setPart p r).live = e.live := rfl
@[simp] theorem Engine.setPart_voices (p : Nat) (r : PartRec) (e : Engine) : (e.setPart p r).voices = e.voices := rfl
@[simp] theorem Engine.setPart_gp (p : Nat) (r : PartRec) (e : Engine) : (e.setPart p r).gp = e.gp := rfl
@[simp] theorem Engine.setPart_pinChg (p : Nat) (r : PartRec) (e : Engine) : (e.setPart p r).pinChg = e.pinChg := rfl
@[simp] theorem Engine.setPart_pins (p : Nat) (r : PartRec) (e : Engine) : (e.setPart p r).pins = e.pins := rfl
@[simp] theorem Engine.setPart_ir (p : Nat) (r : PartRec) (e : Engine) : (e.setPart p r).ir = e.ir := rfl
@[simp] theorem Engine.setPart_tempo (p : Nat) (r : PartRec) (e : Engine) : (e.setPart p r).tempo = e.tempo := rfl
@[simp] theorem Engine.setPart_mix (p : Nat) (r : PartRec) (e : Engine) : (e.setPart p r).mix = e.mix := rfl
@[simp] theorem Engine.setPart_mixChg (p : Nat) (r : PartRec) (e : Engine) : (e.setPart p r).mixChg = e.mixChg := rfl
@[simp] theorem Engine.setPart_mixLive (p : Nat) (r : PartRec) (e : Engine) : (e.setPart p r).mixLive = e.mixLive := rfl
@[simp] theorem Engine.setPart_prof (p : Nat) (r : PartRec) (e : Engine) : (e.setPart p r).prof = e.prof := rfl
@[simp] theorem Engine.setPart_rs (p : Nat) (r : PartRec) (e : Engine) : (e.setPart p r).rs = e.rs := rfl
@[simp] theorem Engine.setPart_rsOld (p : Nat) (r : PartRec) (e : Engine) : (e.setPart p r).rsOld = e.rsOld := rfl
@[simp] theorem Engine.setPart_gin (p : Nat) (r : PartRec) (e : Engine) : (e.setPart p r).gin = e.gin := rfl
@[simp] theorem Engine.setPart_bus (p : Nat) (r : PartRec) (e : Engine) : (e.setPart p r).bus = e.bus := rfl
@[simp] theorem Engine.setPart_fifo (p : Nat) (r : PartRec) (e : Engine) : (e.setPart p r).fifo = e.fifo := rfl
@[simp] theorem Engine.setPart_out (p : Nat) (r : PartRec) (e : Engine) : (e.setPart p r).out = e.out := rfl
@[simp] theorem Engine.setPart_dmem (p : Nat) (r : PartRec) (e : Engine) : (e.setPart p r).dmem = e.dmem := rfl
@[simp] theorem Engine.setPart_dmemNext (p : Nat) (r : PartRec) (e : Engine) : (e.setPart p r).dmemNext = e.dmemNext := rfl
@[simp] theorem Engine.setPart_tjChg (p : Nat) (r : PartRec) (e : Engine) : (e.setPart p r).tjChg = e.tjChg := rfl
@[simp] theorem Engine.setPart_tjLive (p : Nat) (r : PartRec) (e : Engine) : (e.setPart p r).tjLive = e.tjLive := rfl
@[simp] theorem Engine.setPart_mixFam (p : Nat) (r : PartRec) (e : Engine) : (e.setPart p r).mixFam = e.mixFam := rfl

/-! `Engine.writeWord` changes due. -/

@[simp] theorem Engine.writeWord_now (i : Nat) (w : W16) (e : Engine) : (e.writeWord i w).now = e.now := rfl
@[simp] theorem Engine.writeWord_free (i : Nat) (w : W16) (e : Engine) : (e.writeWord i w).free = e.free := rfl
@[simp] theorem Engine.writeWord_mode (i : Nat) (w : W16) (e : Engine) : (e.writeWord i w).mode = e.mode := rfl
@[simp] theorem Engine.writeWord_modePins (i : Nat) (w : W16) (e : Engine) : (e.writeWord i w).modePins = e.modePins := rfl
@[simp] theorem Engine.writeWord_straps (i : Nat) (w : W16) (e : Engine) : (e.writeWord i w).straps = e.straps := rfl
@[simp] theorem Engine.writeWord_kettle (i : Nat) (w : W16) (e : Engine) : (e.writeWord i w).kettle = e.kettle := rfl
@[simp] theorem Engine.writeWord_strobe (i : Nat) (w : W16) (e : Engine) : (e.writeWord i w).strobe = e.strobe := rfl
@[simp] theorem Engine.writeWord_steep (i : Nat) (w : W16) (e : Engine) : (e.writeWord i w).steep = e.steep := rfl
@[simp] theorem Engine.writeWord_image (i : Nat) (w : W16) (e : Engine) : (e.writeWord i w).image = e.image := rfl
@[simp] theorem Engine.writeWord_dials (i : Nat) (w : W16) (e : Engine) : (e.writeWord i w).dials = e.dials := rfl
@[simp] theorem Engine.writeWord_link (i : Nat) (w : W16) (e : Engine) : (e.writeWord i w).link = e.link := rfl
@[simp] theorem Engine.writeWord_input (i : Nat) (w : W16) (e : Engine) : (e.writeWord i w).input = e.input := rfl
@[simp] theorem Engine.writeWord_faults (i : Nat) (w : W16) (e : Engine) : (e.writeWord i w).faults = e.faults := rfl
@[simp] theorem Engine.writeWord_health (i : Nat) (w : W16) (e : Engine) : (e.writeWord i w).health = e.health := rfl
@[simp] theorem Engine.writeWord_load (i : Nat) (w : W16) (e : Engine) : (e.writeWord i w).load = e.load := rfl
@[simp] theorem Engine.writeWord_evq (i : Nat) (w : W16) (e : Engine) : (e.writeWord i w).evq = e.evq := rfl
@[simp] theorem Engine.writeWord_cond (i : Nat) (w : W16) (e : Engine) : (e.writeWord i w).cond = e.cond := rfl
@[simp] theorem Engine.writeWord_parts (i : Nat) (w : W16) (e : Engine) : (e.writeWord i w).parts = e.parts := rfl
@[simp] theorem Engine.writeWord_partChg (i : Nat) (w : W16) (e : Engine) : (e.writeWord i w).partChg = e.partChg := rfl
@[simp] theorem Engine.writeWord_live (i : Nat) (w : W16) (e : Engine) : (e.writeWord i w).live = e.live := rfl
@[simp] theorem Engine.writeWord_voices (i : Nat) (w : W16) (e : Engine) : (e.writeWord i w).voices = e.voices := rfl
@[simp] theorem Engine.writeWord_gp (i : Nat) (w : W16) (e : Engine) : (e.writeWord i w).gp = e.gp := rfl
@[simp] theorem Engine.writeWord_pinChg (i : Nat) (w : W16) (e : Engine) : (e.writeWord i w).pinChg = e.pinChg := rfl
@[simp] theorem Engine.writeWord_pins (i : Nat) (w : W16) (e : Engine) : (e.writeWord i w).pins = e.pins := rfl
@[simp] theorem Engine.writeWord_ir (i : Nat) (w : W16) (e : Engine) : (e.writeWord i w).ir = e.ir := rfl
@[simp] theorem Engine.writeWord_tempo (i : Nat) (w : W16) (e : Engine) : (e.writeWord i w).tempo = e.tempo := rfl
@[simp] theorem Engine.writeWord_mix (i : Nat) (w : W16) (e : Engine) : (e.writeWord i w).mix = e.mix := rfl
@[simp] theorem Engine.writeWord_mixChg (i : Nat) (w : W16) (e : Engine) : (e.writeWord i w).mixChg = e.mixChg := rfl
@[simp] theorem Engine.writeWord_mixLive (i : Nat) (w : W16) (e : Engine) : (e.writeWord i w).mixLive = e.mixLive := rfl
@[simp] theorem Engine.writeWord_prof (i : Nat) (w : W16) (e : Engine) : (e.writeWord i w).prof = e.prof := rfl
@[simp] theorem Engine.writeWord_rs (i : Nat) (w : W16) (e : Engine) : (e.writeWord i w).rs = e.rs := rfl
@[simp] theorem Engine.writeWord_rsOld (i : Nat) (w : W16) (e : Engine) : (e.writeWord i w).rsOld = e.rsOld := rfl
@[simp] theorem Engine.writeWord_gin (i : Nat) (w : W16) (e : Engine) : (e.writeWord i w).gin = e.gin := rfl
@[simp] theorem Engine.writeWord_bus (i : Nat) (w : W16) (e : Engine) : (e.writeWord i w).bus = e.bus := rfl
@[simp] theorem Engine.writeWord_fifo (i : Nat) (w : W16) (e : Engine) : (e.writeWord i w).fifo = e.fifo := rfl
@[simp] theorem Engine.writeWord_out (i : Nat) (w : W16) (e : Engine) : (e.writeWord i w).out = e.out := rfl
@[simp] theorem Engine.writeWord_dmem (i : Nat) (w : W16) (e : Engine) : (e.writeWord i w).dmem = e.dmem := rfl
@[simp] theorem Engine.writeWord_dmemNext (i : Nat) (w : W16) (e : Engine) : (e.writeWord i w).dmemNext = e.dmemNext := rfl
@[simp] theorem Engine.writeWord_tjChg (i : Nat) (w : W16) (e : Engine) : (e.writeWord i w).tjChg = e.tjChg := rfl
@[simp] theorem Engine.writeWord_tjLive (i : Nat) (w : W16) (e : Engine) : (e.writeWord i w).tjLive = e.tjLive := rfl
@[simp] theorem Engine.writeWord_mixFam (i : Nat) (w : W16) (e : Engine) : (e.writeWord i w).mixFam = e.mixFam := rfl

/-! `Engine.setMix` changes mix, mixChg. -/

@[simp] theorem Engine.setMix_now (m : MixRec) (e : Engine) : (e.setMix m).now = e.now := rfl
@[simp] theorem Engine.setMix_free (m : MixRec) (e : Engine) : (e.setMix m).free = e.free := rfl
@[simp] theorem Engine.setMix_mode (m : MixRec) (e : Engine) : (e.setMix m).mode = e.mode := rfl
@[simp] theorem Engine.setMix_modePins (m : MixRec) (e : Engine) : (e.setMix m).modePins = e.modePins := rfl
@[simp] theorem Engine.setMix_straps (m : MixRec) (e : Engine) : (e.setMix m).straps = e.straps := rfl
@[simp] theorem Engine.setMix_kettle (m : MixRec) (e : Engine) : (e.setMix m).kettle = e.kettle := rfl
@[simp] theorem Engine.setMix_strobe (m : MixRec) (e : Engine) : (e.setMix m).strobe = e.strobe := rfl
@[simp] theorem Engine.setMix_steep (m : MixRec) (e : Engine) : (e.setMix m).steep = e.steep := rfl
@[simp] theorem Engine.setMix_image (m : MixRec) (e : Engine) : (e.setMix m).image = e.image := rfl
@[simp] theorem Engine.setMix_dials (m : MixRec) (e : Engine) : (e.setMix m).dials = e.dials := rfl
@[simp] theorem Engine.setMix_link (m : MixRec) (e : Engine) : (e.setMix m).link = e.link := rfl
@[simp] theorem Engine.setMix_input (m : MixRec) (e : Engine) : (e.setMix m).input = e.input := rfl
@[simp] theorem Engine.setMix_faults (m : MixRec) (e : Engine) : (e.setMix m).faults = e.faults := rfl
@[simp] theorem Engine.setMix_health (m : MixRec) (e : Engine) : (e.setMix m).health = e.health := rfl
@[simp] theorem Engine.setMix_load (m : MixRec) (e : Engine) : (e.setMix m).load = e.load := rfl
@[simp] theorem Engine.setMix_due (m : MixRec) (e : Engine) : (e.setMix m).due = e.due := rfl
@[simp] theorem Engine.setMix_evq (m : MixRec) (e : Engine) : (e.setMix m).evq = e.evq := rfl
@[simp] theorem Engine.setMix_cond (m : MixRec) (e : Engine) : (e.setMix m).cond = e.cond := rfl
@[simp] theorem Engine.setMix_parts (m : MixRec) (e : Engine) : (e.setMix m).parts = e.parts := rfl
@[simp] theorem Engine.setMix_partChg (m : MixRec) (e : Engine) : (e.setMix m).partChg = e.partChg := rfl
@[simp] theorem Engine.setMix_live (m : MixRec) (e : Engine) : (e.setMix m).live = e.live := rfl
@[simp] theorem Engine.setMix_voices (m : MixRec) (e : Engine) : (e.setMix m).voices = e.voices := rfl
@[simp] theorem Engine.setMix_gp (m : MixRec) (e : Engine) : (e.setMix m).gp = e.gp := rfl
@[simp] theorem Engine.setMix_pinChg (m : MixRec) (e : Engine) : (e.setMix m).pinChg = e.pinChg := rfl
@[simp] theorem Engine.setMix_pins (m : MixRec) (e : Engine) : (e.setMix m).pins = e.pins := rfl
@[simp] theorem Engine.setMix_ir (m : MixRec) (e : Engine) : (e.setMix m).ir = e.ir := rfl
@[simp] theorem Engine.setMix_tempo (m : MixRec) (e : Engine) : (e.setMix m).tempo = e.tempo := rfl
@[simp] theorem Engine.setMix_mixLive (m : MixRec) (e : Engine) : (e.setMix m).mixLive = e.mixLive := rfl
@[simp] theorem Engine.setMix_prof (m : MixRec) (e : Engine) : (e.setMix m).prof = e.prof := rfl
@[simp] theorem Engine.setMix_rs (m : MixRec) (e : Engine) : (e.setMix m).rs = e.rs := rfl
@[simp] theorem Engine.setMix_rsOld (m : MixRec) (e : Engine) : (e.setMix m).rsOld = e.rsOld := rfl
@[simp] theorem Engine.setMix_gin (m : MixRec) (e : Engine) : (e.setMix m).gin = e.gin := rfl
@[simp] theorem Engine.setMix_bus (m : MixRec) (e : Engine) : (e.setMix m).bus = e.bus := rfl
@[simp] theorem Engine.setMix_fifo (m : MixRec) (e : Engine) : (e.setMix m).fifo = e.fifo := rfl
@[simp] theorem Engine.setMix_out (m : MixRec) (e : Engine) : (e.setMix m).out = e.out := rfl
@[simp] theorem Engine.setMix_dmem (m : MixRec) (e : Engine) : (e.setMix m).dmem = e.dmem := rfl
@[simp] theorem Engine.setMix_dmemNext (m : MixRec) (e : Engine) : (e.setMix m).dmemNext = e.dmemNext := rfl
@[simp] theorem Engine.setMix_tjChg (m : MixRec) (e : Engine) : (e.setMix m).tjChg = e.tjChg := rfl
@[simp] theorem Engine.setMix_tjLive (m : MixRec) (e : Engine) : (e.setMix m).tjLive = e.tjLive := rfl
@[simp] theorem Engine.setMix_mixFam (m : MixRec) (e : Engine) : (e.setMix m).mixFam = e.mixFam := rfl

@[simp] theorem Engine.withCond_cond (f : Cond → Cond) (e : Engine) : (e.withCond f).cond = f e.cond := rfl
@[simp] theorem Engine.onKettle_kettle (f : Kettle → Kettle) (e : Engine) : (e.onKettle f).kettle = f e.kettle := rfl
@[simp] theorem Engine.onSteep_steep (f : Steep → Steep) (e : Engine) : (e.onSteep f).steep = f e.steep := rfl
@[simp] theorem Engine.onTempo_tempo (f : Tempo → Tempo) (e : Engine) : (e.onTempo f).tempo = f e.tempo := rfl
@[simp] theorem Engine.onHealth_health (f : Health → Health) (e : Engine) : (e.onHealth f).health = f e.health := rfl
@[simp] theorem Engine.emit_evq (v : Ev) (e : Engine) : (e.emit v).evq = e.evq ++ [v] := rfl
@[simp] theorem Engine.setMix_mix (m : MixRec) (e : Engine) : (e.setMix m).mix = m := rfl
@[simp] theorem Engine.setPart_parts (p : Nat) (r : PartRec) (e : Engine) : (e.setPart p r).parts = e.parts.set (p - 1) r := rfl

/-! Commands that act on the engine alone. -/

@[simp] theorem State.play_pending (f : Memory → Engine → Engine) (s : State) : (s.play f).pending = s.pending := by
  unfold State.play; split <;> rfl
@[simp] theorem State.playEvents_pending (f : Memory → Engine → Engine) (s : State) : (s.playEvents f).pending = s.pending := by
  unfold State.playEvents; simp
@[simp] theorem State.onEngine_pending (f : Engine → Engine) (s : State) : (s.onEngine f).pending = s.pending := rfl
@[simp] theorem State.play_power (f : Memory → Engine → Engine) (s : State) : (s.play f).power = s.power := by
  unfold State.play; split <;> rfl
@[simp] theorem State.playEvents_power (f : Memory → Engine → Engine) (s : State) : (s.playEvents f).power = s.power := by
  unfold State.playEvents; simp
@[simp] theorem State.onEngine_power (f : Engine → Engine) (s : State) : (s.onEngine f).power = s.power := rfl
@[simp] theorem State.play_thermos (f : Memory → Engine → Engine) (s : State) : (s.play f).thermos = s.thermos := by
  unfold State.play; split <;> rfl
@[simp] theorem State.playEvents_thermos (f : Memory → Engine → Engine) (s : State) : (s.playEvents f).thermos = s.thermos := by
  unfold State.playEvents; simp
@[simp] theorem State.onEngine_thermos (f : Engine → Engine) (s : State) : (s.onEngine f).thermos = s.thermos := rfl
@[simp] theorem State.play_caddy (f : Memory → Engine → Engine) (s : State) : (s.play f).caddy = s.caddy := by
  unfold State.play; split <;> rfl
@[simp] theorem State.playEvents_caddy (f : Memory → Engine → Engine) (s : State) : (s.playEvents f).caddy = s.caddy := by
  unfold State.playEvents; simp
@[simp] theorem State.onEngine_caddy (f : Engine → Engine) (s : State) : (s.onEngine f).caddy = s.caddy := rfl
@[simp] theorem State.play_cells (f : Memory → Engine → Engine) (s : State) : (s.play f).cells = s.cells := by
  unfold State.play; split <;> rfl
@[simp] theorem State.playEvents_cells (f : Memory → Engine → Engine) (s : State) : (s.playEvents f).cells = s.cells := by
  unfold State.playEvents; simp
@[simp] theorem State.onEngine_cells (f : Engine → Engine) (s : State) : (s.onEngine f).cells = s.cells := rfl
@[simp] theorem State.play_dnew (f : Memory → Engine → Engine) (s : State) : (s.play f).dnew = s.dnew := by
  unfold State.play; split <;> rfl
@[simp] theorem State.playEvents_dnew (f : Memory → Engine → Engine) (s : State) : (s.playEvents f).dnew = s.dnew := by
  unfold State.playEvents; simp
@[simp] theorem State.onEngine_dnew (f : Engine → Engine) (s : State) : (s.onEngine f).dnew = s.dnew := rfl
@[simp] theorem State.playPins_pending (f : Memory → Engine → Engine) (s : State) : (s.playPins f).pending = s.pending := by
  unfold State.playPins; simp
@[simp] theorem State.playPins_power (f : Memory → Engine → Engine) (s : State) : (s.playPins f).power = s.power := by
  unfold State.playPins; simp
@[simp] theorem State.playPins_thermos (f : Memory → Engine → Engine) (s : State) : (s.playPins f).thermos = s.thermos := by
  unfold State.playPins; simp
@[simp] theorem State.playPins_caddy (f : Memory → Engine → Engine) (s : State) : (s.playPins f).caddy = s.caddy := by
  unfold State.playPins; simp
@[simp] theorem State.playPins_cells (f : Memory → Engine → Engine) (s : State) : (s.playPins f).cells = s.cells := by
  unfold State.playPins; simp
@[simp] theorem State.playPins_dnew (f : Memory → Engine → Engine) (s : State) : (s.playPins f).dnew = s.dnew := by
  unfold State.playPins; simp
@[simp] theorem State.strobeTail_pending (s : State) : s.strobeTail.pending = s.pending := by
  unfold State.strobeTail; split <;> rfl
@[simp] theorem State.playAt_pending (f : Memory → Engine → Engine) (s : State) : (s.playAt f).pending = s.pending := by
  unfold State.playAt; split <;> simp
@[simp] theorem State.strobeTail_power (s : State) : s.strobeTail.power = s.power := by
  unfold State.strobeTail; split <;> rfl
@[simp] theorem State.playAt_power (f : Memory → Engine → Engine) (s : State) : (s.playAt f).power = s.power := by
  unfold State.playAt; split <;> simp
@[simp] theorem State.strobeTail_caddy (s : State) : s.strobeTail.caddy = s.caddy := by
  unfold State.strobeTail; split <;> rfl
@[simp] theorem State.playAt_caddy (f : Memory → Engine → Engine) (s : State) : (s.playAt f).caddy = s.caddy := by
  unfold State.playAt; split <;> simp
@[simp] theorem State.strobeTail_cells (s : State) : s.strobeTail.cells = s.cells := by
  unfold State.strobeTail; split <;> rfl
@[simp] theorem State.playAt_cells (f : Memory → Engine → Engine) (s : State) : (s.playAt f).cells = s.cells := by
  unfold State.playAt; split <;> simp
@[simp] theorem State.strobeTail_dnew (s : State) : s.strobeTail.dnew = s.dnew := by
  unfold State.strobeTail; split <;> rfl
@[simp] theorem State.playAt_dnew (f : Memory → Engine → Engine) (s : State) : (s.playAt f).dnew = s.dnew := by
  unfold State.playAt; split <;> simp
@[simp] theorem State.strobeTail_hold (s : State) : s.strobeTail.thermos.hold = s.thermos.hold := by
  unfold State.strobeTail
  split
  · unfold Thermos.commit
    dsimp only
    split <;> rfl
  · rfl
@[simp] theorem State.playAt_hold (f : Memory → Engine → Engine) (s : State) : (s.playAt f).thermos.hold = s.thermos.hold := by
  unfold State.playAt; split <;> simp
@[simp] theorem State.clear_pending (s : State) : s.clear.pending = s.pending := rfl
@[simp] theorem State.clear_power (s : State) : s.clear.power = s.power := rfl
@[simp] theorem State.clear_thermos (s : State) : s.clear.thermos = s.thermos := rfl
@[simp] theorem State.clear_caddy (s : State) : s.clear.caddy = s.caddy := rfl

theorem State.play_eng {s : State} (h : s.running = true) (f : Memory → Engine → Engine) : (s.play f).eng = f s.caddy (Engine.settle s.caddy s.eng) := by
  simp [State.play, h]

theorem State.playEvents_eng {s : State} (h : s.running = true) (f : Memory → Engine → Engine) :
    (s.playEvents f).eng = Engine.settle s.caddy (f s.caddy (Engine.settle s.caddy s.eng)) := by
  simp [State.playEvents, State.play_eng h]

theorem State.playPins_eng {s : State} (h : s.running = true) (f : Memory → Engine → Engine) :
    (s.playPins f).eng = Engine.settle s.caddy (gpFixedStep s.caddy (f s.caddy (Engine.settle s.caddy s.eng))) := by
  simp [State.playPins, State.playEvents_eng h]

/-- Away from a strobe, nothing of the strobe is left to do. -/
theorem State.strobeTail_away {s : State} (h : s.eng.strobe.started = true → s.eng.now ≠ s.eng.strobe.last) : s.strobeTail = s := by
  unfold State.strobeTail
  rw [if_neg fun x => h x.2.1 x.2.2]

/-- In reset a command that acts on the engine changes nothing. -/
theorem State.play_reset {s : State} (h : s.running = false) (f : Memory → Engine → Engine) : s.play f = s := by
  simp [State.play, h]

theorem State.strobeTail_reset {s : State} (h : s.running = false) : s.strobeTail = s := by
  simp [State.strobeTail, h]

theorem State.playPins_reset {s : State} (h : s.running = false) (f : Memory → Engine → Engine) : s.playPins f = s := by
  simp [State.playPins, State.playEvents, State.play_reset h]

theorem State.playEvents_reset {s : State} (h : s.running = false) (f : Memory → Engine → Engine) : s.playEvents f = s := by
  simp [State.playEvents, State.play_reset h]

theorem State.playAt_reset {s : State} (h : s.running = false) (f : Memory → Engine → Engine) : s.playAt f = s := by
  simp [State.playAt, h, State.playEvents_reset h]

end Sys2Proof.Machine
end

