-- ==== Sys2Proof/Laws/Datapath.lean ====
section
/-! SUPPORT. What a command of the datapath can do (accumulator operations, word operations), and the shape of every command that acts on
the engine alone. -/

namespace Sys2Proof.Machine

/-- A command that acts on the engine alone. -/
def onEngineOnly : Instr → Bool
  | .frameStrobe | .frameComputationStart _ | .thermosStep | .idleLine _ | .loadInfo .. | .loadOpen .. | .loadSection .. | .loadData ..
  | .loadSeal .. | .loadClose .. | .loadAbort .. | .roleMove _ | .cellTestComplete .. => false
  | i => !onDatapath i && !onReset i && !onSupply i && !writesThermos i

/-- Such a command runs the engine, and does nothing else. -/
theorem exec_engine (i : Instr) (s : State) (h : onEngineOnly i = true) : ∃ f, exec i s = .next (s.play f) := by
  have pins (g : Memory → Engine → Engine) : ∃ f, (Host.Outcome.next (s.playPins g) : Answer) = .next (s.play f) :=
    ⟨fun c e => Engine.settle c (gpFixedStep c (g c e)), rfl⟩
  cases i <;> first
    | (cases h; done)
    | exact ⟨_, rfl⟩
    | exact pins _

/-- What it leaves as it was. -/
theorem exec_engine_frame {i : Instr} {s t : State} (h : onEngineOnly i = true) (e : exec i s = .next t) :
    t.pending = s.pending ∧ t.power = s.power ∧ t.thermos = s.thermos ∧ t.caddy = s.caddy ∧ t.cells = s.cells ∧ t.dnew = s.dnew := by
  obtain ⟨f, hf⟩ := exec_engine i s h
  rw [hf] at e
  cases e
  simp

/-- A command that acts at an instant that may be that of a strobe, which then ends with it (R864, R868). -/
def endsStrobe : Instr → Bool
  | .crystalStartTimeout _ | .unlockDeclared _ | .loopLockTimeout _ | .retuneStart | .unmuteStart | .steepLate _ | .conversionComplete _ _
  | .routineCycle _ _ | .trimStart _ | .trimEnd _ _ | .trimRequestTimeout _ => true
  | _ => false

/-- Such a command runs the engine, and then what is left of the strobe. -/
theorem exec_endsStrobe (i : Instr) (s : State) (h : endsStrobe i = true) : ∃ f, exec i s = .next (s.playAt f) := by
  cases i <;> first
    | (cases h; done)
    | exact ⟨_, rfl⟩

/-- What it leaves as it was: all but the engine and T05 of the thermos. -/
theorem exec_endsStrobe_frame {i : Instr} {s t : State} (h : endsStrobe i = true) (e : exec i s = .next t) :
    t.pending = s.pending ∧ t.power = s.power ∧ t.thermos.hold = s.thermos.hold ∧ t.caddy = s.caddy ∧ t.cells = s.cells ∧ t.dnew = s.dnew := by
  obtain ⟨f, hf⟩ := exec_endsStrobe i s h
  rw [hf] at e
  cases e
  simp

/-- A cell written back changes the cells, where it computes, and the engine where a parity error was met. -/
theorem State.putCell_frame (i : Nat) (k : Cell) (bad : Bool) (s : State) :
    (s.putCell i k bad).pending = s.pending ∧ (s.putCell i k bad).power = s.power ∧ (s.putCell i k bad).thermos = s.thermos ∧
      (s.putCell i k bad).caddy = s.caddy ∧ (s.putCell i k bad).dnew = s.dnew ∧
      (s.putCell i k bad).cells = (if s.computes i then updAt (fun _ => k) i s.cells else s.cells) ∧
      (bad = false ∨ s.computes i = false → (s.putCell i k bad).eng = s.eng) := by
  unfold State.putCell
  cases hc : s.computes i <;> cases bad <;> simp

/-- A command of the datapath answers the written cell, with at most one store more. -/
theorem exec_datapath (i : Instr) (s : State) (h : onDatapath i = true) :
    ∃ c k bad new, exec i s = .next { s.putCell c k bad with dnew := s.dnew ++ new } := by
  have keep (c : Nat) (k : Cell) (bad : Bool) : s.putCell c k bad = { s.putCell c k bad with dnew := s.dnew ++ [] } := by
    rw [List.append_nil, ← (State.putCell_frame c k bad s).2.2.2.2.1]
  have put (c : Nat) (k : Cell) (bad : Bool) :
      ∃ c' k' b' new, (Host.Outcome.next (s.putCell c k bad) : Answer) = .next { s.putCell c' k' b' with dnew := s.dnew ++ new } :=
    ⟨c, k, bad, [], congrArg _ (keep c k bad)⟩
  cases i with
  | stx c d =>
    cases d with
    | none => exact put ..
    | some p => exact ⟨_, _, _, _, rfl⟩
  | clr => exact put ..
  | lda => exact put ..
  | mul => exact put ..
  | mac => exact put ..
  | msu => exact put ..
  | add => exact put ..
  | stf => exact put ..
  | neg => exact put ..
  | abs => exact put ..
  | min => exact put ..
  | max => exact put ..
  | sel => exact put ..
  | norm => exact put ..
  | exp => exact put ..
  | scale => exact put ..
  | itf => exact put ..
  | ftp => exact put ..
  | padd => exact put ..
  | phs => exact put ..
  | ldx => exact put ..
  | ld16 => exact put ..
  | ldu => exact put ..
  | _ => cases h

end Sys2Proof.Machine
end

