-- ==== Sys2Proof/Laws/Memory.lean ====
section
/-! SUPPORT. The addressed stores: what a write leaves to read, and that every write keeps the canonical form and the bounds. -/

namespace Sys2Proof.Machine

variable {α : Type} [DecidableEq α]

/-! ## Sparse stores -/

theorem sparseOk_mono {z : α} {a b : Nat} (h : a ≤ b) : ∀ {m : List (Nat × α)}, sparseOk z b m = true → sparseOk z a m = true
  | [], _ => rfl
  | (k, v) :: r, hm => by
    simp only [sparseOk, Bool.and_eq_true, decide_eq_true_eq] at hm ⊢
    exact ⟨⟨by omega, hm.1.2⟩, hm.2⟩

/-- Nothing is listed below the bound. -/
theorem sparseGet_below {z : α} {lo k : Nat} (h : k < lo) : ∀ {m : List (Nat × α)}, sparseOk z lo m = true → sparseGet z m k = z
  | [], _ => rfl
  | (a, v) :: r, hm => by
    simp only [sparseOk, Bool.and_eq_true, decide_eq_true_eq] at hm
    have : k < a := by omega
    simp [sparseGet, this]

/-- A write keeps the canonical form. -/
theorem sparseSet_ok {z : α} {lo k : Nat} (v : α) (h : lo ≤ k) :
    ∀ {m : List (Nat × α)}, sparseOk z lo m = true → sparseOk z lo (sparseSet z k v m) = true
  | [], _ => by
    by_cases hv : v = z <;> simp [sparseSet, sparseOk, hv, h]
  | (a, w) :: r, hm => by
    have hm' := hm
    simp only [sparseOk, Bool.and_eq_true, decide_eq_true_eq] at hm
    unfold sparseSet
    split
    · split
      · exact hm'
      · next hka hv =>
        simp only [sparseOk, Bool.and_eq_true, decide_eq_true_eq]
        exact ⟨⟨h, hv⟩, ⟨by omega, hm.1.2⟩, hm.2⟩
    · split
      · next hka hk =>
        subst hk
        split
        · exact sparseOk_mono (by omega) hm.2
        · next hv =>
          simp only [sparseOk, Bool.and_eq_true, decide_eq_true_eq]
          exact ⟨⟨h, hv⟩, hm.2⟩
      · next hka hk =>
        simp only [sparseOk, Bool.and_eq_true, decide_eq_true_eq]
        exact ⟨hm.1, sparseSet_ok v (by omega) hm.2⟩

/-- Reading after a write: the value at its address, every other address as it was. -/
theorem sparseGet_set {z : α} {lo : Nat} (k : Nat) (v : α) (j : Nat) :
    ∀ {m : List (Nat × α)}, sparseOk z lo m = true → sparseGet z (sparseSet z k v m) j = if j = k then v else sparseGet z m j
  | [], _ => by
    by_cases hv : v = z
    · simp [sparseSet, sparseGet, hv]
    · by_cases hj : j = k
      · simp [sparseSet, sparseGet, hv, hj]
      · simp [sparseSet, sparseGet, hv, hj]
  | (a, w) :: r, hm => by
    simp only [sparseOk, Bool.and_eq_true, decide_eq_true_eq] at hm
    obtain ⟨⟨-, -⟩, hr⟩ := hm
    have ih := sparseGet_set k v j hr
    rcases Nat.lt_trichotomy k a with hk | hk | hk
    · by_cases hv : v = z
      · by_cases hj : j = k
        · simp [sparseSet, sparseGet, hk, hv, hj]
        · simp [sparseSet, hk, hv, hj]
      · rcases Nat.lt_trichotomy j k with hj | hj | hj
        · have h1 : j ≠ k := by omega
          have h2 : j < a := by omega
          simp [sparseSet, sparseGet, hk, hv, hj, h1, h2]
        · simp [sparseSet, sparseGet, hk, hv, hj]
        · have h1 : j ≠ k := by omega
          have h2 : ¬ j < k := by omega
          simp [sparseSet, sparseGet, hk, hv, h1, h2]
    · subst hk
      by_cases hv : v = z
      · rcases Nat.lt_trichotomy j k with hj | hj | hj
        · have h1 : j ≠ k := by omega
          simp [sparseSet, sparseGet, hv, hj, h1, sparseGet_below (show j < k + 1 by omega) hr]
        · simp [sparseSet, hv, hj, sparseGet_below (show k < k + 1 by omega) hr]
        · have h1 : j ≠ k := by omega
          have h2 : ¬ j < k := by omega
          simp [sparseSet, sparseGet, hv, h1, h2]
      · by_cases hj : j = k
        · simp [sparseSet, sparseGet, hv, hj]
        · simp [sparseSet, sparseGet, hv, hj]
    · have h1 : ¬ k < a := by omega
      have h2 : k ≠ a := by omega
      by_cases hj : j < a
      · have h3 : j ≠ k := by omega
        simp [sparseSet, sparseGet, h1, h2, h3, hj]
      · by_cases hja : j = a
        · have h3 : j ≠ k := by omega
          subst hja
          simp [sparseSet, sparseGet, h1, h2, h3]
        · simp [sparseSet, sparseGet, h1, h2, hj, hja, ih]

/-- A write below `n` lists nothing at or above `n`. -/
theorem indicesBelow_set {z : α} {n k : Nat} (v : α) (h : k < n) :
    ∀ {m : List (Nat × α)}, indicesBelow n m = true → indicesBelow n (sparseSet z k v m) = true
  | [], _ => by
    by_cases hv : v = z <;> simp [sparseSet, indicesBelow, hv, h]
  | (a, w) :: r, hm => by
    have hm' := hm
    simp only [indicesBelow, List.all_cons, Bool.and_eq_true, decide_eq_true_eq] at hm
    have hr : indicesBelow n r = true := hm.2
    have ih : indicesBelow n (sparseSet z k v r) = true := indicesBelow_set v h hr
    have cons (x : Nat × α) {l : List (Nat × α)} (hx : x.1 < n) (hl : indicesBelow n l = true) : indicesBelow n (x :: l) = true := by
      simp only [indicesBelow, List.all_cons, Bool.and_eq_true, decide_eq_true_eq]
      exact ⟨hx, hl⟩
    unfold sparseSet
    split
    · split
      · exact hm'
      · exact cons (k, v) h hm'
    · split
      · split
        · exact hr
        · exact cons (k, v) h hr
      · exact cons (a, w) hm.1 ih

/-! ## The caddy -/

/-- A byte written keeps the canonical form. -/
theorem caddySet_wf {m : Memory} (a : Nat) (b : Byte) (h : Memory.wf m = true) : Memory.wf (caddySet m a b) = true := by
  unfold caddySet
  split
  · exact sparseSet_ok b (Nat.zero_le a) h
  · exact h

/-- A byte written keeps the form and the bounds. -/
theorem caddySet_ok {m : Memory} (a : Nat) (b : Byte) (h : caddyOk m = true) : caddyOk (caddySet m a b) = true := by
  simp only [caddyOk, Bool.and_eq_true] at h ⊢
  refine ⟨caddySet_wf a b h.1, ?_⟩
  unfold caddySet
  split
  · next ha => exact indicesBelow_set b ha h.2
  · exact h.2

/-- Reading after one byte written. -/
theorem caddyGet_set {m : Memory} (a : Nat) (b : Byte) (j : Nat) (h : Memory.wf m = true) :
    caddyGet (caddySet m a b) j = if j = a ∧ a < 4194304 then b else caddyGet m j := by
  unfold caddySet caddyGet
  split
  · next ha => rw [sparseGet_set a b j h]; simp [ha]
  · next ha => simp [ha]

/-- Bytes written keep the canonical form. -/
theorem caddyWrite_wf (bs : List Byte) : ∀ (m : Memory) (a : Nat), Memory.wf m = true → Memory.wf (caddyWrite m a bs) = true := by
  induction bs with
  | nil => exact fun m a h => h
  | cons b bs ih => exact fun m a h => ih _ _ (caddySet_wf a b h)

/-- Bytes written keep the form and the bounds. -/
theorem caddyWrite_ok (bs : List Byte) : ∀ (m : Memory) (a : Nat), caddyOk m = true → caddyOk (caddyWrite m a bs) = true := by
  induction bs with
  | nil => exact fun m a h => h
  | cons b bs ih => exact fun m a h => ih _ _ (caddySet_ok a b h)

/-- Reading after bytes written inside the caddy. -/
theorem caddyGet_write (bs : List Byte) : ∀ (m : Memory) (a j : Nat), Memory.wf m = true → a + bs.length ≤ 4194304 →
    caddyGet (caddyWrite m a bs) j = if a ≤ j ∧ j < a + bs.length then nth 0#8 bs (j - a) else caddyGet m j := by
  induction bs with
  | nil =>
    intro m a j _ _
    have h : ¬ (a ≤ j ∧ j < a + ([] : List Byte).length) := by simp only [List.length_nil]; omega
    rw [if_neg h, caddyWrite]
  | cons b bs ih =>
    intro m a j h ha
    simp only [List.length_cons] at ha ⊢
    rw [caddyWrite, ih _ _ _ (caddySet_wf a b h) (by omega), caddyGet_set a b j h]
    by_cases hj : j = a
    · subst hj
      have h1 : j < 4194304 := by omega
      have h2 : ¬ j + 1 ≤ j := by omega
      simp [nth, h1, h2]
    · by_cases h2 : a + 1 ≤ j ∧ j < a + 1 + bs.length
      · have h3 : a ≤ j ∧ j < a + (bs.length + 1) := by omega
        have h4 : j - a = j - (a + 1) + 1 := by omega
        simp [h2, h3, h4, nth]
      · have h3 : ¬ (a ≤ j ∧ j < a + (bs.length + 1)) := by omega
        rw [if_neg h2, if_neg h3, if_neg (fun c => hj c.1)]

/-! ## The delay memory -/

/-- A place written keeps the canonical form. -/
theorem delaySet_wf {m : DelayMem} (a : Nat) (w : W24) (h : DelayMem.wf m = true) : DelayMem.wf (delaySet m a w) = true := by
  unfold delaySet
  split
  · exact sparseSet_ok w (Nat.zero_le a) h
  · exact h

/-- Reading after one place written. -/
theorem delayGet_set {m : DelayMem} (a : Nat) (w : W24) (j : Nat) (h : DelayMem.wf m = true) :
    delayGet (delaySet m a w) j = if j = a ∧ a < 262144 then w else delayGet m j := by
  unfold delaySet delayGet
  split
  · next ha => rw [sparseGet_set a w j h]; simp [ha]
  · next ha => simp [ha]

/-! ## The memories of a cell -/

/-- A word written inside a memory of `n` words keeps its form. -/
theorem wordsOk_set {m : List (Nat × W32)} {n k : Nat} (v : W32) (hk : k < n) (h : wordsOk n m = true) :
    wordsOk n (sparseSet 0#32 k v m) = true := by
  simp only [wordsOk, Bool.and_eq_true] at h ⊢
  exact ⟨sparseSet_ok v (Nat.zero_le k) h.1, indicesBelow_set v hk h.2⟩

end Sys2Proof.Machine
end

