-- ==== Sys2Proof/Laws/PerInstr.lean ====
section
/-! SUPPORT. A family of statements about every command as syntax: the settings of an address register that a well-formed command brings fit the
memory that the register addresses (§9.6, Table 9-1). -/

namespace Sys2Proof.Laws.Domain

/-- The settings that an operand brings, with the size of their memory. -/
def ofOpd : Opd → List (Nat × AddrInit)
  | .via _ (some i) _ _ => [(1024, i)]
  | _ => []

/-- The settings that a result place brings. -/
def ofDst : Dst → List (Nat × AddrInit)
  | .via _ (some i) _ => [(1024, i)]
  | _ => []

/-- The settings that a place of delay memory brings. -/
def ofPlace : Place → List (Nat × AddrInit)
  | .via _ (some i) _ => [(262144, i)]
  | _ => []

/-- The settings of address registers that a command brings. -/
def settings : Instr → List (Nat × AddrInit)
  | .lda _ x | .add _ x => ofOpd x
  | .mul _ x y | .mac _ x y | .msu _ x y => ofOpd x ++ ofOpd y
  | .stf _ d | .ld16 _ _ d | .ldu _ _ d => ofDst d
  | .stx _ (some p) => ofPlace p
  | .neg _ x d | .abs _ x d | .norm _ x d | .exp _ x d | .itf _ x d | .ftp _ x d | .phs _ x _ d => ofOpd x ++ ofDst d
  | .min _ x y d | .max _ x y d | .scale _ x y d | .padd _ x y d => ofOpd x ++ ofOpd y ++ ofDst d
  | .sel _ c x y d => ofOpd c ++ ofOpd x ++ ofOpd y ++ ofDst d
  | .ldx _ p i d => ofPlace (p.place i) ++ ofDst d
  | _ => []

/-- Base and address lie in the memory, and the length is between 1 and its size. -/
def Fits (x : Nat × AddrInit) : Prop := x.2.b < x.1 ∧ x.2.a < x.1 ∧ 1 ≤ x.2.len ∧ x.2.len ≤ x.1

/-- The settings that a well-formed command brings fit. -/
def Statement (i : Instr) : Prop := i.wf = true → ∀ x ∈ settings i, Fits x

theorem fits_init {n : Nat} {i : AddrInit} (h : AddrInit.wf n i = true) : Fits (n, i) := by
  simpa [Fits, AddrInit.wf, and_assoc] using h

theorem fits_opd {x : Opd} (h : x.wf = true) : ∀ y ∈ ofOpd x, Fits y := by
  unfold ofOpd
  split
  · exact fun y hy => by cases List.mem_singleton.mp hy; exact fits_init h
  · simp

theorem fits_dst {d : Dst} (h : d.wf = true) : ∀ y ∈ ofDst d, Fits y := by
  unfold ofDst
  split
  · exact fun y hy => by cases List.mem_singleton.mp hy; exact fits_init h
  · simp

theorem fits_place {p : Place} (h : p.wf = true) : ∀ y ∈ ofPlace p, Fits y := by
  unfold ofPlace
  split
  · exact fun y hy => by cases List.mem_singleton.mp hy; exact fits_init h
  · simp

/-- Two operands. -/
theorem both {a b : Bool} {l m : List (Nat × AddrInit)} (ha : a = true → ∀ y ∈ l, Fits y) (hb : b = true → ∀ y ∈ m, Fits y) :
    (a && b) = true → ∀ y ∈ l ++ m, Fits y := fun h y hy =>
  have h := Bool.and_eq_true_iff.mp h
  (List.mem_append.mp hy).elim (ha h.1 y) (hb h.2 y)

/-- A command that brings no settings. -/
theorem of_nil {i : Instr} (h : settings i = []) : Statement i := fun _ x hx => by rw [h] at hx; cases hx

end Sys2Proof.Laws.Domain

open Sys2Proof

theorem Sys2Proof.Laws.Domain.resetNFall : Sys2Proof.Laws.Domain.Statement .resetNFall := Sys2Proof.Laws.Domain.of_nil rfl
theorem Sys2Proof.Laws.Domain.resetNRise (mode : BitVec 3) : Sys2Proof.Laws.Domain.Statement (.resetNRise mode) := Sys2Proof.Laws.Domain.of_nil rfl
theorem Sys2Proof.Laws.Domain.powerOnResetRelease (mode : BitVec 3) : Sys2Proof.Laws.Domain.Statement (.powerOnResetRelease mode) :=
  Sys2Proof.Laws.Domain.of_nil rfl
theorem Sys2Proof.Laws.Domain.detectorTrip (rail : Rail) : Sys2Proof.Laws.Domain.Statement (.detectorTrip rail) := Sys2Proof.Laws.Domain.of_nil rfl
theorem Sys2Proof.Laws.Domain.vbakSwitchover : Sys2Proof.Laws.Domain.Statement .vbakSwitchover := Sys2Proof.Laws.Domain.of_nil rfl
theorem Sys2Proof.Laws.Domain.vioSwitchover : Sys2Proof.Laws.Domain.Statement .vioSwitchover := Sys2Proof.Laws.Domain.of_nil rfl
theorem Sys2Proof.Laws.Domain.holdLatchSet : Sys2Proof.Laws.Domain.Statement .holdLatchSet := Sys2Proof.Laws.Domain.of_nil rfl
theorem Sys2Proof.Laws.Domain.crystalValid (t : Nat) : Sys2Proof.Laws.Domain.Statement (.crystalValid t) := Sys2Proof.Laws.Domain.of_nil rfl
theorem Sys2Proof.Laws.Domain.crystalLoss (t : Nat) : Sys2Proof.Laws.Domain.Statement (.crystalLoss t) := Sys2Proof.Laws.Domain.of_nil rfl
theorem Sys2Proof.Laws.Domain.internalReset (t : Nat) : Sys2Proof.Laws.Domain.Statement (.internalReset t) := Sys2Proof.Laws.Domain.of_nil rfl
theorem Sys2Proof.Laws.Domain.internalResetRelease (mode : BitVec 3) : Sys2Proof.Laws.Domain.Statement (.internalResetRelease mode) :=
  Sys2Proof.Laws.Domain.of_nil rfl
theorem Sys2Proof.Laws.Domain.crystalStartTimeout (t : Nat) : Sys2Proof.Laws.Domain.Statement (.crystalStartTimeout t) :=
  Sys2Proof.Laws.Domain.of_nil rfl
theorem Sys2Proof.Laws.Domain.loopStart (t : Nat) : Sys2Proof.Laws.Domain.Statement (.loopStart t) := Sys2Proof.Laws.Domain.of_nil rfl
theorem Sys2Proof.Laws.Domain.lockDeclared (t : Nat) : Sys2Proof.Laws.Domain.Statement (.lockDeclared t) := Sys2Proof.Laws.Domain.of_nil rfl
theorem Sys2Proof.Laws.Domain.unlockDeclared (t : Nat) : Sys2Proof.Laws.Domain.Statement (.unlockDeclared t) := Sys2Proof.Laws.Domain.of_nil rfl
theorem Sys2Proof.Laws.Domain.loopLockTimeout (t : Nat) : Sys2Proof.Laws.Domain.Statement (.loopLockTimeout t) := Sys2Proof.Laws.Domain.of_nil rfl
theorem Sys2Proof.Laws.Domain.relockAccepted (t : Nat) : Sys2Proof.Laws.Domain.Statement (.relockAccepted t) := Sys2Proof.Laws.Domain.of_nil rfl
theorem Sys2Proof.Laws.Domain.retuneStart : Sys2Proof.Laws.Domain.Statement .retuneStart := Sys2Proof.Laws.Domain.of_nil rfl
theorem Sys2Proof.Laws.Domain.unmuteStart : Sys2Proof.Laws.Domain.Statement .unmuteStart := Sys2Proof.Laws.Domain.of_nil rfl
theorem Sys2Proof.Laws.Domain.trackingSettled : Sys2Proof.Laws.Domain.Statement .trackingSettled := Sys2Proof.Laws.Domain.of_nil rfl
theorem Sys2Proof.Laws.Domain.frameStrobe : Sys2Proof.Laws.Domain.Statement .frameStrobe := Sys2Proof.Laws.Domain.of_nil rfl
theorem Sys2Proof.Laws.Domain.counterTick (pins : BitVec 16) : Sys2Proof.Laws.Domain.Statement (.counterTick pins) := Sys2Proof.Laws.Domain.of_nil rfl
theorem Sys2Proof.Laws.Domain.frameComputationStart (bad : List BadWord) : Sys2Proof.Laws.Domain.Statement (.frameComputationStart bad) :=
  Sys2Proof.Laws.Domain.of_nil rfl
theorem Sys2Proof.Laws.Domain.frameComputationComplete : Sys2Proof.Laws.Domain.Statement .frameComputationComplete := Sys2Proof.Laws.Domain.of_nil rfl
theorem Sys2Proof.Laws.Domain.strapBurst (a b c d : StrapVolts) (refs : StrapRefs) : Sys2Proof.Laws.Domain.Statement (.strapBurst a b c d refs) :=
  Sys2Proof.Laws.Domain.of_nil rfl
theorem Sys2Proof.Laws.Domain.directoryCheck : Sys2Proof.Laws.Domain.Statement .directoryCheck := Sys2Proof.Laws.Domain.of_nil rfl
theorem Sys2Proof.Laws.Domain.thermosStep : Sys2Proof.Laws.Domain.Statement .thermosStep := Sys2Proof.Laws.Domain.of_nil rfl
theorem Sys2Proof.Laws.Domain.meadowSelfTest (romOk dmemOk : Bool) (failed : List (Fin 192)) : Sys2Proof.Laws.Domain.Statement (.meadowSelfTest romOk dmemOk failed) :=
  Sys2Proof.Laws.Domain.of_nil rfl
theorem Sys2Proof.Laws.Domain.delayLineCalibration (first second : ChannelCal) : Sys2Proof.Laws.Domain.Statement (.delayLineCalibration first second) :=
  Sys2Proof.Laws.Domain.of_nil rfl
theorem Sys2Proof.Laws.Domain.contentScan : Sys2Proof.Laws.Domain.Statement .contentScan := Sys2Proof.Laws.Domain.of_nil rfl
theorem Sys2Proof.Laws.Domain.partPreparation : Sys2Proof.Laws.Domain.Statement .partPreparation := Sys2Proof.Laws.Domain.of_nil rfl
theorem Sys2Proof.Laws.Domain.steepLate (t : Nat) : Sys2Proof.Laws.Domain.Statement (.steepLate t) := Sys2Proof.Laws.Domain.of_nil rfl
theorem Sys2Proof.Laws.Domain.chimeEnd : Sys2Proof.Laws.Domain.Statement .chimeEnd := Sys2Proof.Laws.Domain.of_nil rfl
theorem Sys2Proof.Laws.Domain.conversionComplete (vin : Int) (vref : Nat) : Sys2Proof.Laws.Domain.Statement (.conversionComplete vin vref) :=
  Sys2Proof.Laws.Domain.of_nil rfl
theorem Sys2Proof.Laws.Domain.receiverArmed (t : Nat) : Sys2Proof.Laws.Domain.Statement (.receiverArmed t) := Sys2Proof.Laws.Domain.of_nil rfl
theorem Sys2Proof.Laws.Domain.syncCharacter (edges : List Nat) (stopHigh : Bool) : Sys2Proof.Laws.Domain.Statement (.syncCharacter edges stopHigh) :=
  Sys2Proof.Laws.Domain.of_nil rfl
theorem Sys2Proof.Laws.Domain.syncCandidateRejected (c : SyncCandidate) : Sys2Proof.Laws.Domain.Statement (.syncCandidateRejected c) :=
  Sys2Proof.Laws.Domain.of_nil rfl
theorem Sys2Proof.Laws.Domain.framingError (t rise : Nat) : Sys2Proof.Laws.Domain.Statement (.framingError t rise) := Sys2Proof.Laws.Domain.of_nil rfl
theorem Sys2Proof.Laws.Domain.idleLine (t : Nat) : Sys2Proof.Laws.Domain.Statement (.idleLine t) := Sys2Proof.Laws.Domain.of_nil rfl
theorem Sys2Proof.Laws.Domain.noteOff (ch : BitVec 4) (note vel : BitVec 7) (t : Nat) : Sys2Proof.Laws.Domain.Statement (.noteOff ch note vel t) :=
  Sys2Proof.Laws.Domain.of_nil rfl
theorem Sys2Proof.Laws.Domain.noteOn (ch : BitVec 4) (note vel : BitVec 7) (t : Nat) : Sys2Proof.Laws.Domain.Statement (.noteOn ch note vel t) :=
  Sys2Proof.Laws.Domain.of_nil rfl
theorem Sys2Proof.Laws.Domain.polyKeyPressure (ch : BitVec 4) (note p : BitVec 7) (t : Nat) : Sys2Proof.Laws.Domain.Statement (.polyKeyPressure ch note p t) :=
  Sys2Proof.Laws.Domain.of_nil rfl
theorem Sys2Proof.Laws.Domain.controlChange (ch : BitVec 4) (cc v : BitVec 7) (t : Nat) : Sys2Proof.Laws.Domain.Statement (.controlChange ch cc v t) :=
  Sys2Proof.Laws.Domain.of_nil rfl
theorem Sys2Proof.Laws.Domain.bankSelectMsb (ch : BitVec 4) (v : BitVec 7) (t : Nat) : Sys2Proof.Laws.Domain.Statement (.bankSelectMsb ch v t) :=
  Sys2Proof.Laws.Domain.of_nil rfl
theorem Sys2Proof.Laws.Domain.dataEntryMsb (ch : BitVec 4) (v : BitVec 7) (t : Nat) : Sys2Proof.Laws.Domain.Statement (.dataEntryMsb ch v t) :=
  Sys2Proof.Laws.Domain.of_nil rfl
theorem Sys2Proof.Laws.Domain.dataEntryLsb (ch : BitVec 4) (v : BitVec 7) (t : Nat) : Sys2Proof.Laws.Domain.Statement (.dataEntryLsb ch v t) :=
  Sys2Proof.Laws.Domain.of_nil rfl
theorem Sys2Proof.Laws.Domain.partVolume (ch : BitVec 4) (v : BitVec 7) (t : Nat) : Sys2Proof.Laws.Domain.Statement (.partVolume ch v t) :=
  Sys2Proof.Laws.Domain.of_nil rfl
theorem Sys2Proof.Laws.Domain.pan (ch : BitVec 4) (v : BitVec 7) (t : Nat) : Sys2Proof.Laws.Domain.Statement (.pan ch v t) :=
  Sys2Proof.Laws.Domain.of_nil rfl
theorem Sys2Proof.Laws.Domain.macros (ch : BitVec 4) (m : Fin 8) (v : BitVec 7) (t : Nat) : Sys2Proof.Laws.Domain.Statement (.macros ch m v t) :=
  Sys2Proof.Laws.Domain.of_nil rfl
theorem Sys2Proof.Laws.Domain.sustain (ch : BitVec 4) (v : BitVec 7) (t : Nat) : Sys2Proof.Laws.Domain.Statement (.sustain ch v t) :=
  Sys2Proof.Laws.Domain.of_nil rfl
theorem Sys2Proof.Laws.Domain.portamento (ch : BitVec 4) (v : BitVec 7) (t : Nat) : Sys2Proof.Laws.Domain.Statement (.portamento ch v t) :=
  Sys2Proof.Laws.Domain.of_nil rfl
theorem Sys2Proof.Laws.Domain.sostenuto (ch : BitVec 4) (v : BitVec 7) (t : Nat) : Sys2Proof.Laws.Domain.Statement (.sostenuto ch v t) :=
  Sys2Proof.Laws.Domain.of_nil rfl
theorem Sys2Proof.Laws.Domain.rpnSelect (ch : BitVec 4) (msb : Bool) (v : BitVec 7) (t : Nat) : Sys2Proof.Laws.Domain.Statement (.rpnSelect ch msb v t) :=
  Sys2Proof.Laws.Domain.of_nil rfl
theorem Sys2Proof.Laws.Domain.nrpnSelect (ch : BitVec 4) (msb : Bool) (v : BitVec 7) (t : Nat) : Sys2Proof.Laws.Domain.Statement (.nrpnSelect ch msb v t) :=
  Sys2Proof.Laws.Domain.of_nil rfl
theorem Sys2Proof.Laws.Domain.allSoundOff (ch : BitVec 4) (v : BitVec 7) (t : Nat) : Sys2Proof.Laws.Domain.Statement (.allSoundOff ch v t) :=
  Sys2Proof.Laws.Domain.of_nil rfl
theorem Sys2Proof.Laws.Domain.resetAllControllers (ch : BitVec 4) (v : BitVec 7) (t : Nat) : Sys2Proof.Laws.Domain.Statement (.resetAllControllers ch v t) :=
  Sys2Proof.Laws.Domain.of_nil rfl
theorem Sys2Proof.Laws.Domain.allNotesOff (ch : BitVec 4) (k : Fin 5) (v : BitVec 7) (t : Nat) : Sys2Proof.Laws.Domain.Statement (.allNotesOff ch k v t) :=
  Sys2Proof.Laws.Domain.of_nil rfl
theorem Sys2Proof.Laws.Domain.programChange (ch : BitVec 4) (p : BitVec 7) (t : Nat) : Sys2Proof.Laws.Domain.Statement (.programChange ch p t) :=
  Sys2Proof.Laws.Domain.of_nil rfl
theorem Sys2Proof.Laws.Domain.channelPressure (ch : BitVec 4) (p : BitVec 7) (t : Nat) : Sys2Proof.Laws.Domain.Statement (.channelPressure ch p t) :=
  Sys2Proof.Laws.Domain.of_nil rfl
theorem Sys2Proof.Laws.Domain.pitchBend (ch : BitVec 4) (lsb msb : BitVec 7) (t : Nat) : Sys2Proof.Laws.Domain.Statement (.pitchBend ch lsb msb t) :=
  Sys2Proof.Laws.Domain.of_nil rfl
theorem Sys2Proof.Laws.Domain.systemExclusive (data : List (BitVec 7)) (t : Nat) : Sys2Proof.Laws.Domain.Statement (.systemExclusive data t) :=
  Sys2Proof.Laws.Domain.of_nil rfl
theorem Sys2Proof.Laws.Domain.systemCommon (k : Fin 7) (data : List (BitVec 7)) (t : Nat) : Sys2Proof.Laws.Domain.Statement (.systemCommon k data t) :=
  Sys2Proof.Laws.Domain.of_nil rfl
theorem Sys2Proof.Laws.Domain.timingClock (t : Nat) : Sys2Proof.Laws.Domain.Statement (.timingClock t) := Sys2Proof.Laws.Domain.of_nil rfl
theorem Sys2Proof.Laws.Domain.startPlay (t : Nat) : Sys2Proof.Laws.Domain.Statement (.startPlay t) := Sys2Proof.Laws.Domain.of_nil rfl
theorem Sys2Proof.Laws.Domain.continuePlay (t : Nat) : Sys2Proof.Laws.Domain.Statement (.continuePlay t) := Sys2Proof.Laws.Domain.of_nil rfl
theorem Sys2Proof.Laws.Domain.stopPlay (t : Nat) : Sys2Proof.Laws.Domain.Statement (.stopPlay t) := Sys2Proof.Laws.Domain.of_nil rfl
theorem Sys2Proof.Laws.Domain.ignoredRealTime (k : Fin 4) (t : Nat) : Sys2Proof.Laws.Domain.Statement (.ignoredRealTime k t) :=
  Sys2Proof.Laws.Domain.of_nil rfl
theorem Sys2Proof.Laws.Domain.externalModeExit (t : Nat) : Sys2Proof.Laws.Domain.Statement (.externalModeExit t) := Sys2Proof.Laws.Domain.of_nil rfl
theorem Sys2Proof.Laws.Domain.regularFrame : Sys2Proof.Laws.Domain.Statement .regularFrame := Sys2Proof.Laws.Domain.of_nil rfl
theorem Sys2Proof.Laws.Domain.faultFrame : Sys2Proof.Laws.Domain.Statement .faultFrame := Sys2Proof.Laws.Domain.of_nil rfl
theorem Sys2Proof.Laws.Domain.statusLoadFrame : Sys2Proof.Laws.Domain.Statement .statusLoadFrame := Sys2Proof.Laws.Domain.of_nil rfl
theorem Sys2Proof.Laws.Domain.inputLock (edges : List BckEdge) : Sys2Proof.Laws.Domain.Statement (.inputLock edges) :=
  Sys2Proof.Laws.Domain.of_nil rfl
theorem Sys2Proof.Laws.Domain.decisionInstant (edges : List BckEdge) (t : Nat) : Sys2Proof.Laws.Domain.Statement (.decisionInstant edges t) :=
  Sys2Proof.Laws.Domain.of_nil rfl
theorem Sys2Proof.Laws.Domain.switchingPeriod (ch : Fin 4) (rises falls : List Nat) (flips : TapFlips) : Sys2Proof.Laws.Domain.Statement (.switchingPeriod ch rises falls flips) :=
  Sys2Proof.Laws.Domain.of_nil rfl
theorem Sys2Proof.Laws.Domain.routineCycle (ch : Fin 4) (found : RoutineCheck) : Sys2Proof.Laws.Domain.Statement (.routineCycle ch found) :=
  Sys2Proof.Laws.Domain.of_nil rfl
theorem Sys2Proof.Laws.Domain.lineCalibrationComplete (ch : Fin 4) (codes : List (BitVec 6)) (found : LineCheck) : Sys2Proof.Laws.Domain.Statement (.lineCalibrationComplete ch codes found) :=
  Sys2Proof.Laws.Domain.of_nil rfl
theorem Sys2Proof.Laws.Domain.trimStart (ch : Fin 4) : Sys2Proof.Laws.Domain.Statement (.trimStart ch) := Sys2Proof.Laws.Domain.of_nil rfl
theorem Sys2Proof.Laws.Domain.trimEnd (ch : Fin 4) (offset : Int) : Sys2Proof.Laws.Domain.Statement (.trimEnd ch offset) :=
  Sys2Proof.Laws.Domain.of_nil rfl
theorem Sys2Proof.Laws.Domain.trimRequestTimeout (ch : Fin 4) : Sys2Proof.Laws.Domain.Statement (.trimRequestTimeout ch) :=
  Sys2Proof.Laws.Domain.of_nil rfl
theorem Sys2Proof.Laws.Domain.pulseDistanceCodeFrame (runs : List IrRun) (t : Nat) : Sys2Proof.Laws.Domain.Statement (.pulseDistanceCodeFrame runs t) :=
  Sys2Proof.Laws.Domain.of_nil rfl
theorem Sys2Proof.Laws.Domain.pulseDistanceRepeatFrame (runs : List IrRun) (t : Nat) : Sys2Proof.Laws.Domain.Statement (.pulseDistanceRepeatFrame runs t) :=
  Sys2Proof.Laws.Domain.of_nil rfl
theorem Sys2Proof.Laws.Domain.biPhaseFrame (runs : List IrRun) (t : Nat) : Sys2Proof.Laws.Domain.Statement (.biPhaseFrame runs t) :=
  Sys2Proof.Laws.Domain.of_nil rfl
theorem Sys2Proof.Laws.Domain.chainTimeout (t : Nat) : Sys2Proof.Laws.Domain.Statement (.chainTimeout t) := Sys2Proof.Laws.Domain.of_nil rfl
theorem Sys2Proof.Laws.Domain.flood (a : IrActivity) : Sys2Proof.Laws.Domain.Statement (.flood a) := Sys2Proof.Laws.Domain.of_nil rfl
theorem Sys2Proof.Laws.Domain.floodEnd (a : IrIdle) : Sys2Proof.Laws.Domain.Statement (.floodEnd a) := Sys2Proof.Laws.Domain.of_nil rfl
theorem Sys2Proof.Laws.Domain.debounceChange (entry : Fin 16) : Sys2Proof.Laws.Domain.Statement (.debounceChange entry) :=
  Sys2Proof.Laws.Domain.of_nil rfl
theorem Sys2Proof.Laws.Domain.switchRepeat (entry : Fin 16) : Sys2Proof.Laws.Domain.Statement (.switchRepeat entry) :=
  Sys2Proof.Laws.Domain.of_nil rfl
theorem Sys2Proof.Laws.Domain.switchLong (entry : Fin 16) : Sys2Proof.Laws.Domain.Statement (.switchLong entry) := Sys2Proof.Laws.Domain.of_nil rfl
theorem Sys2Proof.Laws.Domain.rotation : Sys2Proof.Laws.Domain.Statement .rotation := Sys2Proof.Laws.Domain.of_nil rfl
theorem Sys2Proof.Laws.Domain.roleMove (cell : Fin 192) : Sys2Proof.Laws.Domain.Statement (.roleMove cell) := Sys2Proof.Laws.Domain.of_nil rfl
theorem Sys2Proof.Laws.Domain.cellTestComplete (cell : Fin 192) (reads : List TestRead) : Sys2Proof.Laws.Domain.Statement (.cellTestComplete cell reads) :=
  Sys2Proof.Laws.Domain.of_nil rfl
theorem Sys2Proof.Laws.Domain.loadInfo (h : LoadHead) : Sys2Proof.Laws.Domain.Statement (.loadInfo h) := Sys2Proof.Laws.Domain.of_nil rfl
theorem Sys2Proof.Laws.Domain.loadOpen (h : LoadHead) (mode : Byte) (tag : W32) (failRow : Option Nat) : Sys2Proof.Laws.Domain.Statement (.loadOpen h mode tag failRow) :=
  Sys2Proof.Laws.Domain.of_nil rfl
theorem Sys2Proof.Laws.Domain.loadSection (h : LoadHead) (id : W16) (length scrc : W32) : Sys2Proof.Laws.Domain.Statement (.loadSection h id length scrc) :=
  Sys2Proof.Laws.Domain.of_nil rfl
theorem Sys2Proof.Laws.Domain.loadData (h : LoadHead) (offset : W32) (bytes : List Byte) (failRow : Option Nat) : Sys2Proof.Laws.Domain.Statement (.loadData h offset bytes failRow) :=
  Sys2Proof.Laws.Domain.of_nil rfl
theorem Sys2Proof.Laws.Domain.loadSeal (h : LoadHead) (failRow : Option Nat) : Sys2Proof.Laws.Domain.Statement (.loadSeal h failRow) :=
  Sys2Proof.Laws.Domain.of_nil rfl
theorem Sys2Proof.Laws.Domain.loadClose (h : LoadHead) (failRow : Option Nat) : Sys2Proof.Laws.Domain.Statement (.loadClose h failRow) :=
  Sys2Proof.Laws.Domain.of_nil rfl
theorem Sys2Proof.Laws.Domain.loadAbort (h : LoadHead) : Sys2Proof.Laws.Domain.Statement (.loadAbort h) := Sys2Proof.Laws.Domain.of_nil rfl
theorem Sys2Proof.Laws.Domain.acknowledgement : Sys2Proof.Laws.Domain.Statement .acknowledgement := Sys2Proof.Laws.Domain.of_nil rfl
theorem Sys2Proof.Laws.Domain.volumeStep (value : W32) : Sys2Proof.Laws.Domain.Statement (.volumeStep value) := Sys2Proof.Laws.Domain.of_nil rfl
theorem Sys2Proof.Laws.Domain.volumeSet (value : W32) : Sys2Proof.Laws.Domain.Statement (.volumeSet value) := Sys2Proof.Laws.Domain.of_nil rfl
theorem Sys2Proof.Laws.Domain.muteToggle : Sys2Proof.Laws.Domain.Statement .muteToggle := Sys2Proof.Laws.Domain.of_nil rfl
theorem Sys2Proof.Laws.Domain.mute : Sys2Proof.Laws.Domain.Statement .mute := Sys2Proof.Laws.Domain.of_nil rfl
theorem Sys2Proof.Laws.Domain.unmute : Sys2Proof.Laws.Domain.Statement .unmute := Sys2Proof.Laws.Domain.of_nil rfl
theorem Sys2Proof.Laws.Domain.sourceSet (value : W32) : Sys2Proof.Laws.Domain.Statement (.sourceSet value) := Sys2Proof.Laws.Domain.of_nil rfl
theorem Sys2Proof.Laws.Domain.sourceCycle : Sys2Proof.Laws.Domain.Statement .sourceCycle := Sys2Proof.Laws.Domain.of_nil rfl
theorem Sys2Proof.Laws.Domain.profileSet (value : W32) : Sys2Proof.Laws.Domain.Statement (.profileSet value) := Sys2Proof.Laws.Domain.of_nil rfl
theorem Sys2Proof.Laws.Domain.profileStep (value : W32) : Sys2Proof.Laws.Domain.Statement (.profileStep value) := Sys2Proof.Laws.Domain.of_nil rfl
theorem Sys2Proof.Laws.Domain.patchSet (part bank : Byte) (value : W32) : Sys2Proof.Laws.Domain.Statement (.patchSet part bank value) :=
  Sys2Proof.Laws.Domain.of_nil rfl
theorem Sys2Proof.Laws.Domain.patchStep (part : Byte) (value : W32) : Sys2Proof.Laws.Domain.Statement (.patchStep part value) :=
  Sys2Proof.Laws.Domain.of_nil rfl
theorem Sys2Proof.Laws.Domain.macroSet (part m : Byte) (value : W32) : Sys2Proof.Laws.Domain.Statement (.macroSet part m value) :=
  Sys2Proof.Laws.Domain.of_nil rfl
theorem Sys2Proof.Laws.Domain.macroStep (part m : Byte) (value : W32) : Sys2Proof.Laws.Domain.Statement (.macroStep part m value) :=
  Sys2Proof.Laws.Domain.of_nil rfl
theorem Sys2Proof.Laws.Domain.tap : Sys2Proof.Laws.Domain.Statement .tap := Sys2Proof.Laws.Domain.of_nil rfl
theorem Sys2Proof.Laws.Domain.tempoStep (value : W32) : Sys2Proof.Laws.Domain.Statement (.tempoStep value) := Sys2Proof.Laws.Domain.of_nil rfl
theorem Sys2Proof.Laws.Domain.transport (arg : Byte) : Sys2Proof.Laws.Domain.Statement (.transport arg) := Sys2Proof.Laws.Domain.of_nil rfl
theorem Sys2Proof.Laws.Domain.ccSend (part cc v : Byte) : Sys2Proof.Laws.Domain.Statement (.ccSend part cc v) := Sys2Proof.Laws.Domain.of_nil rfl
theorem Sys2Proof.Laws.Domain.note (part note vel : Byte) : Sys2Proof.Laws.Domain.Statement (.note part note vel) := Sys2Proof.Laws.Domain.of_nil rfl
theorem Sys2Proof.Laws.Domain.counter (n action : Byte) : Sys2Proof.Laws.Domain.Statement (.counter n action) := Sys2Proof.Laws.Domain.of_nil rfl
theorem Sys2Proof.Laws.Domain.pinSet (entry : Byte) : Sys2Proof.Laws.Domain.Statement (.pinSet entry) := Sys2Proof.Laws.Domain.of_nil rfl
theorem Sys2Proof.Laws.Domain.pinClear (entry : Byte) : Sys2Proof.Laws.Domain.Statement (.pinClear entry) := Sys2Proof.Laws.Domain.of_nil rfl
theorem Sys2Proof.Laws.Domain.pinToggle (entry : Byte) : Sys2Proof.Laws.Domain.Statement (.pinToggle entry) := Sys2Proof.Laws.Domain.of_nil rfl
theorem Sys2Proof.Laws.Domain.pinLevel (entry level : Byte) : Sys2Proof.Laws.Domain.Statement (.pinLevel entry level) :=
  Sys2Proof.Laws.Domain.of_nil rfl
theorem Sys2Proof.Laws.Domain.duck (which arg : Byte) : Sys2Proof.Laws.Domain.Statement (.duck which arg) := Sys2Proof.Laws.Domain.of_nil rfl
theorem Sys2Proof.Laws.Domain.wetSet (effect : Byte) (value : W32) : Sys2Proof.Laws.Domain.Statement (.wetSet effect value) :=
  Sys2Proof.Laws.Domain.of_nil rfl
theorem Sys2Proof.Laws.Domain.clr (cell : Fin 192) : Sys2Proof.Laws.Domain.Statement (.clr cell) := Sys2Proof.Laws.Domain.of_nil rfl
theorem Sys2Proof.Laws.Domain.lda (cell : Fin 192) (x : Opd) : Sys2Proof.Laws.Domain.Statement (.lda cell x) :=
  fun h => Sys2Proof.Laws.Domain.fits_opd h
theorem Sys2Proof.Laws.Domain.mul (cell : Fin 192) (x y : Opd) : Sys2Proof.Laws.Domain.Statement (.mul cell x y) :=
  Sys2Proof.Laws.Domain.both Sys2Proof.Laws.Domain.fits_opd Sys2Proof.Laws.Domain.fits_opd
theorem Sys2Proof.Laws.Domain.mac (cell : Fin 192) (x y : Opd) : Sys2Proof.Laws.Domain.Statement (.mac cell x y) :=
  Sys2Proof.Laws.Domain.both Sys2Proof.Laws.Domain.fits_opd Sys2Proof.Laws.Domain.fits_opd
theorem Sys2Proof.Laws.Domain.msu (cell : Fin 192) (x y : Opd) : Sys2Proof.Laws.Domain.Statement (.msu cell x y) :=
  Sys2Proof.Laws.Domain.both Sys2Proof.Laws.Domain.fits_opd Sys2Proof.Laws.Domain.fits_opd
theorem Sys2Proof.Laws.Domain.add (cell : Fin 192) (x : Opd) : Sys2Proof.Laws.Domain.Statement (.add cell x) :=
  fun h => Sys2Proof.Laws.Domain.fits_opd h
theorem Sys2Proof.Laws.Domain.stf (cell : Fin 192) (d : Dst) : Sys2Proof.Laws.Domain.Statement (.stf cell d) :=
  fun h => Sys2Proof.Laws.Domain.fits_dst h
theorem Sys2Proof.Laws.Domain.stx (cell : Fin 192) (d : Option Place) : Sys2Proof.Laws.Domain.Statement (.stx cell d) :=
  match d with
  | none => Sys2Proof.Laws.Domain.of_nil rfl
  | some _ => Sys2Proof.Laws.Domain.fits_place
theorem Sys2Proof.Laws.Domain.neg (cell : Fin 192) (x : Opd) (d : Dst) : Sys2Proof.Laws.Domain.Statement (.neg cell x d) :=
  Sys2Proof.Laws.Domain.both Sys2Proof.Laws.Domain.fits_opd Sys2Proof.Laws.Domain.fits_dst
theorem Sys2Proof.Laws.Domain.abs (cell : Fin 192) (x : Opd) (d : Dst) : Sys2Proof.Laws.Domain.Statement (.abs cell x d) :=
  Sys2Proof.Laws.Domain.both Sys2Proof.Laws.Domain.fits_opd Sys2Proof.Laws.Domain.fits_dst
theorem Sys2Proof.Laws.Domain.min (cell : Fin 192) (x y : Opd) (d : Dst) : Sys2Proof.Laws.Domain.Statement (.min cell x y d) :=
  Sys2Proof.Laws.Domain.both (Sys2Proof.Laws.Domain.both Sys2Proof.Laws.Domain.fits_opd Sys2Proof.Laws.Domain.fits_opd) (Sys2Proof.Laws.Domain.fits_dst)
theorem Sys2Proof.Laws.Domain.max (cell : Fin 192) (x y : Opd) (d : Dst) : Sys2Proof.Laws.Domain.Statement (.max cell x y d) :=
  Sys2Proof.Laws.Domain.both (Sys2Proof.Laws.Domain.both Sys2Proof.Laws.Domain.fits_opd Sys2Proof.Laws.Domain.fits_opd) (Sys2Proof.Laws.Domain.fits_dst)
theorem Sys2Proof.Laws.Domain.sel (cell : Fin 192) (c x y : Opd) (d : Dst) : Sys2Proof.Laws.Domain.Statement (.sel cell c x y d) :=
  Sys2Proof.Laws.Domain.both (Sys2Proof.Laws.Domain.both (Sys2Proof.Laws.Domain.both Sys2Proof.Laws.Domain.fits_opd Sys2Proof.Laws.Domain.fits_opd) (Sys2Proof.Laws.Domain.fits_opd)) (Sys2Proof.Laws.Domain.fits_dst)
theorem Sys2Proof.Laws.Domain.norm (cell : Fin 192) (x : Opd) (d : Dst) : Sys2Proof.Laws.Domain.Statement (.norm cell x d) :=
  Sys2Proof.Laws.Domain.both Sys2Proof.Laws.Domain.fits_opd Sys2Proof.Laws.Domain.fits_dst
theorem Sys2Proof.Laws.Domain.exp (cell : Fin 192) (x : Opd) (d : Dst) : Sys2Proof.Laws.Domain.Statement (.exp cell x d) :=
  Sys2Proof.Laws.Domain.both Sys2Proof.Laws.Domain.fits_opd Sys2Proof.Laws.Domain.fits_dst
theorem Sys2Proof.Laws.Domain.scale (cell : Fin 192) (x n : Opd) (d : Dst) : Sys2Proof.Laws.Domain.Statement (.scale cell x n d) :=
  Sys2Proof.Laws.Domain.both (Sys2Proof.Laws.Domain.both Sys2Proof.Laws.Domain.fits_opd Sys2Proof.Laws.Domain.fits_opd) (Sys2Proof.Laws.Domain.fits_dst)
theorem Sys2Proof.Laws.Domain.itf (cell : Fin 192) (k : Opd) (d : Dst) : Sys2Proof.Laws.Domain.Statement (.itf cell k d) :=
  Sys2Proof.Laws.Domain.both Sys2Proof.Laws.Domain.fits_opd Sys2Proof.Laws.Domain.fits_dst
theorem Sys2Proof.Laws.Domain.ftp (cell : Fin 192) (x : Opd) (d : Dst) : Sys2Proof.Laws.Domain.Statement (.ftp cell x d) :=
  Sys2Proof.Laws.Domain.both Sys2Proof.Laws.Domain.fits_opd Sys2Proof.Laws.Domain.fits_dst
theorem Sys2Proof.Laws.Domain.padd (cell : Fin 192) (p q : Opd) (d : Dst) : Sys2Proof.Laws.Domain.Statement (.padd cell p q d) :=
  Sys2Proof.Laws.Domain.both (Sys2Proof.Laws.Domain.both Sys2Proof.Laws.Domain.fits_opd Sys2Proof.Laws.Domain.fits_opd) (Sys2Proof.Laws.Domain.fits_dst)
theorem Sys2Proof.Laws.Domain.phs (cell : Fin 192) (p : Opd) (k : Fin 17) (d : Dst) : Sys2Proof.Laws.Domain.Statement (.phs cell p k d) :=
  Sys2Proof.Laws.Domain.both Sys2Proof.Laws.Domain.fits_opd Sys2Proof.Laws.Domain.fits_dst
theorem Sys2Proof.Laws.Domain.ldx (cell : Fin 192) (p : Spot) (init : Option AddrInit) (d : Dst) : Sys2Proof.Laws.Domain.Statement (.ldx cell p init d) :=
  Sys2Proof.Laws.Domain.both Sys2Proof.Laws.Domain.fits_place Sys2Proof.Laws.Domain.fits_dst
theorem Sys2Proof.Laws.Domain.ld16 (cell : Fin 192) (byte : Fin 4194304) (d : Dst) : Sys2Proof.Laws.Domain.Statement (.ld16 cell byte d) :=
  fun h => Sys2Proof.Laws.Domain.fits_dst h
theorem Sys2Proof.Laws.Domain.ldu (cell : Fin 192) (byte : Fin 4194304) (d : Dst) : Sys2Proof.Laws.Domain.Statement (.ldu cell byte d) :=
  fun h => Sys2Proof.Laws.Domain.fits_dst h
theorem Sys2Proof.Laws.Domain.character (samples : BitVec 10) (times : CharTimes) : Sys2Proof.Laws.Domain.Statement (.character samples times) :=
  Sys2Proof.Laws.Domain.of_nil rfl
theorem Sys2Proof.Laws.Domain.trackingSettledEnd : Sys2Proof.Laws.Domain.Statement .trackingSettledEnd := Sys2Proof.Laws.Domain.of_nil rfl
end

