-- ==== Sys2Proof/Laws/Settle.lean ====
section
/-! SUPPORT. What the handling of waiting events does: nothing where none waits, and only the emptying of the queue where no binding and no
dial target is in use. -/

namespace Sys2Proof.Machine

theorem settle_nil {c : Memory} {e : Engine} (h : e.evq = []) : Engine.settle c e = e := by
  simp [Engine.settle, drain, h]

/-- Where no event waits, a command of the engine acts on it as it stands. -/
theorem State.play_calm {s : State} (h : s.running = true) (hq : s.eng.evq = []) (f : Memory → Engine → Engine) :
    s.play f = { s with eng := f s.caddy s.eng } := by
  simp [State.play, h, settle_nil hq]

theorem State.playEvents_calm {s : State} (h : s.running = true) (hq : s.eng.evq = []) (f : Memory → Engine → Engine) :
    s.playEvents f = { s with eng := Engine.settle s.caddy (f s.caddy s.eng) } := by
  simp [State.playEvents, State.play_calm h hq]

theorem State.playPins_calm {s : State} (h : s.running = true) (hq : s.eng.evq = []) (f : Memory → Engine → Engine) :
    s.playPins f = { s with eng := Engine.settle s.caddy (gpFixedStep s.caddy (f s.caddy s.eng)) } := by
  simp [State.playPins, State.playEvents_calm h hq]

/-- Settling the fault events of a strobe leaves nothing else to do where none waits. -/
theorem settleAt_nil {c : Memory} {e : Engine} (h : e.evq = []) : Engine.settleAt c e = e := by
  cases e
  simp only at h
  subst h
  simp [Engine.settleAt, settle_nil]

theorem evMatches_zero {w : W32} (h : slotBits 7 0 w = 0) (v : Ev) : evMatches w v = false := by
  cases v <;> simp [evMatches, h]

/-- The dial events of the queue are those of the twelve dials. -/
def DialsIn (q : List Ev) : Prop := ∀ i u, Ev.dial i u ∈ q → i < 12

theorem dialTarget_unbound {c : Memory} {e : Engine} (h : Unbound c e.image) {i : Nat} (hi : i < 12) (u : Nat) : dialTarget c i u e = e := by
  simp [dialTarget, h.2 i hi]

theorem foldl_id {α β : Type} {g : α → β → α} (l : List β) (a : α) (h : ∀ b ∈ l, g a b = a) : l.foldl g a = a := by
  induction l with
  | nil => rfl
  | cons b l ih => rw [List.foldl, h b (by simp), ih fun x hx => h x (by simp [hx])]

theorem handleEvent_unbound {c : Memory} {e : Engine} (h : Unbound c e.image) (v : Ev) (hv : ∀ i u, v = .dial i u → i < 12) :
    handleEvent c v e = e := by
  have no (b : Nat) (hb : b ∈ List.range 64) : evMatches (bindSlot c e.image b 0) v = false :=
    evMatches_zero (h.1 b (List.mem_range.mp hb)) v
  have he : eventTarget c v e = e := by
    cases v with
    | dial i u => exact dialTarget_unbound h (hv i u rfl) u
    | _ => rfl
  unfold handleEvent
  rw [he]
  exact foldl_id _ _ fun b hb => by simp only [no b hb, Bool.false_eq_true, if_false]

theorem drain_unbound (c : Memory) : ∀ (n : Nat) (e : Engine), Unbound c e.image → DialsIn e.evq →
    drain c n e = { e with evq := e.evq.drop n }
  | 0, e, _, _ => by simp [drain]
  | n + 1, e, h, hd => by
    cases hq : e.evq with
    | nil => simp only [drain, hq, List.drop_nil]; rw [← hq]
    | cons v r =>
      have h' : Unbound c ({ e with evq := r } : Engine).image := h
      have hv : ∀ i u, v = .dial i u → i < 12 := fun i u hv => hd i u (by rw [hq, hv]; simp)
      have hr : DialsIn ({ e with evq := r } : Engine).evq := fun i u hm => hd i u (by rw [hq]; exact List.mem_cons_of_mem _ hm)
      simp only [drain, hq, handleEvent_unbound h' v hv, drain_unbound c n _ h' hr, List.drop_succ_cons]

/-- Where no binding and no dial target is in use, settling only empties the queue of events. -/
theorem settle_unbound {c : Memory} {e : Engine} (h : Unbound c e.image) (hd : DialsIn e.evq) :
    Engine.settle c e = { e with evq := e.evq.drop 4096 } := drain_unbound c 4096 e h hd

end Sys2Proof.Machine
end

