-- ==== Sys2Proof/Tests/Slice0.lean ====
section
/-! SUPPORT. Tests: an ill-formed term for each check of well-formedness, for each statement a state and operands that meet its hypotheses, and
small steps against the tables of the spec. -/

set_option Elab.async false

namespace Sys2Proof.Tests

open Sys2Proof.Machine

/-! ## Small states -/

/-- A caddy whose system section at byte 0 enables part 1 (slot 0x100). -/
def mem : Memory := [(0x400, 1#8)]

/-- The engine at t0 in Play mode, with the system section at byte 0 of the caddy. -/
def atT0 : Engine := { Engine.cleared with straps := ⟨0, 0, 0, 0⟩, image := { Engine.cleared.image with sys := some 0 } }

/-- The machine outside reset with the engine `e`. -/
def st (e : Engine) : State := { State.reset with power := ⟨true, false, false, [], false⟩, caddy := mem, eng := e }

/-- A kettle locked at 4000000 tQ. -/
def locked : Kettle := { Kettle.zero with crystal := true, locked := true, firstLock := true, tLock := 4000000 }

/-- Every step of bring-up done. -/
def done : Steep :=
  { Steep.zero with
    b1 := true, b3 := true, b4 := true, b5 := true, b6 := true, b7 := true, b8 := true, b9 := true, b10 := true, p := some 10, f := some 12 }

/-- A receiver in data state at the fixed rate. -/
def port : Link := { Link.zero with armed := true, tr := some (12582912 / 1000) }

/-- Full service at strobe 1000, all four ticks past. -/
def svc : Engine :=
  { atT0 with
    kettle := locked, strobe := ⟨true, 1000, 8096000, 4⟩, steep := done, link := port, cond := { Cond.zero with limit := 256 } }

/-- Load mode with load service begun. -/
def ldm : Engine :=
  { atT0 with
    mode := .load, kettle := locked, strobe := ⟨true, 1000, 8096000, 0⟩, steep := { Steep.zero with b1 := true, b3 := true }, link := port
    load := ⟨true, none, none, none, none, 0, 0⟩, pins := { Engine.cleared.pins with ready := true } }

/-- Bring-up under way: the crystal serves, no strobe yet. -/
def early : Engine := { atT0 with kettle := { Kettle.zero with crystal := true } }

/-- No binding of the test caddy is in use. -/
theorem unbound_mem : Unbound mem atT0.image := by
  unfold Unbound
  decide +kernel

/-- An engine that keeps the image and has no event waiting is quiet. -/
theorem quiet_st (e : Engine) (hi : e.image = atT0.image) (hq : e.evq = []) : (st e).quiet :=
  ⟨rfl, hq, by show Unbound mem e.image; rw [hi]; exact unbound_mem⟩

theorem inService_st (e : Engine) (hi : e.image = atT0.image) (hq : e.evq = []) (hs : e.served = true) : (st e).inService :=
  ⟨quiet_st e hi hq, hs⟩

theorem hears_st (t : Nat) (e : Engine) (hi : e.image = atT0.image) (hq : e.evq = []) (hs : e.served = true) (hl : (st e).listening t) :
    (st e).hears t := ⟨inService_st e hi hq hs, hl⟩

theorem hears_svc (t : Nat) : (st svc).hears t := hears_st t svc rfl rfl rfl ⟨rfl, rfl, rfl, rfl⟩

/-! ## States that meet the hypotheses of the statements -/

/-- A delay line that has passed, register `i` at `i` elements. -/
def passing : DelayLine := ⟨(List.range 32).map fun i => tapReg (BitVec.ofNat 6 i), true⟩

/-- A modulating channel with two calibrated lines. -/
def line : Chan := { Chan.zero with modulating := true, coarse := false, lines := [passing, passing], x := 0x3F000000#32 }

/-- Full service with four modulating channels. -/
def svm : Engine := { svc with out := { svc.out with chans := List.replicate 4 line, clocks := true } }

theorem wit_stepRunsFront : (st svc).pending = [] := rfl

theorem inv_reset_fall : ({ State.reset with pending := [.resetNFall] } : State).Inv := by
  unfold State.Inv
  decide +kernel

theorem wit_stepKeepsInv : ∃ s t : State, s.Inv ∧ step s = .next t := ⟨_, _, inv_reset_fall, rfl⟩

theorem wit_resetHoldsTheEngine : State.reset.running = false ∧ onReset .mute = false ∧ onSupply .mute = false ∧ onDatapath .mute = false := by
  decide

theorem wit_onlyLoadWritesCaddy : ∃ t, exec .mute State.reset = .next t ∧ writesCaddy .mute = false := ⟨_, rfl, rfl⟩

theorem wit_thermosWriters : ∃ t, exec .mute State.reset = .next t ∧ writesThermos .mute = false ∧ setsHold .mute = false :=
  ⟨_, rfl, rfl, rfl⟩

theorem wit_cellWriters : ∃ t, exec .mute State.reset = .next t ∧ onDatapath .mute = false ∧ onReset .mute = false ∧
    (∀ bad, Instr.mute ≠ .frameComputationStart bad) ∧ (∀ k, Instr.mute ≠ .roleMove k) ∧ ∀ k l, Instr.mute ≠ .cellTestComplete k l :=
  ⟨_, rfl, rfl, rfl, fun _ => by simp, fun _ => by simp, fun _ _ => by simp⟩

/-- A machine under the three resets `r` (RESET_N low), `p` (power-on) and `i` (internal). -/
def held (r p i : Bool) : State := { State.reset with power := ⟨!r, p, i, [], false⟩ }

theorem wit_lastReleaseStarts_n : (held true false false).power.resetN = false ∧ (held true false false).power.por = false ∧
    (held true false false).power.internal = false := by decide

theorem wit_lastReleaseStarts_n_more : (held true true false).power.resetN = false ∧ ((held true true false).power.por = true ∨
    (held true true false).power.internal = true) := by decide

theorem wit_lastReleaseStarts_p : (held false true false).power.por = true ∧ (held false true false).power.resetN = true ∧
    (held false true false).power.internal = false := by decide

theorem wit_lastReleaseStarts_p_more : (held true true false).power.por = true ∧ ((held true true false).power.resetN = false ∨
    (held true true false).power.internal = true) := by decide

theorem wit_lastReleaseStarts_i : (held false false true).power.internal = true ∧ (held false false true).power.resetN = true ∧
    (held false false true).power.por = false := by decide

theorem wit_lastReleaseStarts_i_more : (held true false true).power.internal = true ∧ ((held true false true).power.resetN = false ∨
    (held true false true).power.por = true) := by decide

/-- The crystal lost at 100 tQ. -/
def lost (e : Engine) : State := st { e with kettle := { locked with down := some 100, crystal := false } }

theorem wit_internalResetBegins : (lost svc).running = true ∧ (lost svc).eng.kettle.down = some ((100 : Nat) : Rat) ∧ 100 + 393216 ≤ 393316 ∧
    (lost svc).eng.mode ≠ .load ∧ (lost svc).eng.steep.b4 = true := by decide +kernel

theorem wit_internalResetBegins_load : (lost ldm).running = true ∧ (lost ldm).eng.kettle.down = some ((100 : Nat) : Rat) ∧
    ((lost ldm).eng.mode = .load ∨ (lost ldm).eng.steep.b4 = false) := by decide +kernel

theorem wit_crystalBecomesValid : (st atT0).running = true ∧ (st atT0).calm ∧ (st atT0).eng.kettle.crystal = false := ⟨rfl, rfl, rfl⟩

theorem wit_crystalBecomesValid_reset : State.reset.running = false := by decide

theorem wit_crystalStartFails : (st atT0).quiet ∧ (st atT0).eng.kettle.crystal = false ∧ (st atT0).eng.kettle.startRaised = false ∧
    (st atT0).eng.kettle.down = none := ⟨quiet_st _ rfl rfl, by decide +kernel⟩

theorem wit_crystalLoss : (st svm).quiet ∧ (st svm).clocked := ⟨quiet_st _ rfl rfl, rfl, rfl, rfl⟩

/-- The loop has failed at 100 tQ, and the crystal still serves. -/
def failed : State := st { svm with kettle := { locked with down := some 100, locked := false } }

theorem wit_crystalLoss_again : failed.quiet ∧ failed.eng.kettle.crystal = true ∧ failed.eng.kettle.down = some 100 :=
  ⟨quiet_st _ rfl rfl, rfl, rfl⟩

/-- The loop runs from 200 tQ and has not locked. -/
def unlocked (e : Engine) : State := st { e with kettle := { locked with locked := false, firstLock := false, loopAt := some 200 } }

theorem wit_loopLockTimeout : (unlocked svm).quiet ∧ (unlocked svm).clocked ∧ (unlocked svm).eng.kettle.locked = false ∧
    (unlocked svm).eng.kettle.loopAt = some ((200 : Nat) : Rat) ∧ 200 + 7864320 ≤ 7864520 :=
  ⟨quiet_st _ rfl rfl, ⟨rfl, rfl, rfl⟩, by decide +kernel⟩

/-- After B1 with STRAP_C at `c`, the input unlocked. -/
def strapped (c : Nat) : State := st { early with straps := ⟨0, 0, c, 0⟩, steep := { Steep.zero with b1 := true } }

theorem wit_loopStart_xf : (strapped 0).clocked ∧ (strapped 0).eng.steep.b1 = true ∧ (strapped 0).eng.kettle.firstLock = false ∧
    (strapped 0).eng.kettle.loopAt = none ∧ policy (strapped 0).eng = .xf48 ∧ policy (strapped 4).eng = .xf44 :=
  ⟨⟨rfl, rfl, rfl⟩, by decide +kernel⟩

theorem wit_loopStart_wait : (strapped 12).clocked ∧ policy (strapped 12).eng = .xfol ∧ policy (strapped 8).eng = .wclk ∧
    inputFam (strapped 12).eng = none ∧ (strapped 12).eng.kettle.crystalAt + msT 12 ≤ ((4718592 : Nat) : Rat) :=
  ⟨⟨rfl, rfl, rfl⟩, by decide +kernel⟩

/-- The input is locked at 44.1 kHz under XFOL. -/
def follows : State :=
  st { early with straps := ⟨0, 0, 12, 0⟩, steep := { Steep.zero with b1 := true }, input := { Input.zero with locked := true, row := 12 } }

theorem wit_loopStart_input : follows.clocked ∧ policy follows.eng = .xfol ∧ inputFam follows.eng = some .f44 :=
  ⟨⟨rfl, rfl, rfl⟩, by decide +kernel⟩

theorem wit_lockDeclared : (unlocked svm).quiet ∧ (unlocked svm).clocked ∧ (unlocked svm).eng.kettle.locked = false ∧
    (unlocked svm).eng.kettle.loopAt = some ((200 : Nat) : Rat) ∧ (unlocked svm).eng.kettle.firstLock = false ∧
    policy (unlocked svm).eng ≠ .wclk ∧ (unlocked svm).eng.out.chans.length = 4 := ⟨quiet_st _ rfl rfl, ⟨rfl, rfl, rfl⟩, by decide +kernel⟩

/-- A relock whose loop runs in the new family, outside full service. -/
def relocking : State := st { svm with kettle := { locked with locked := false, loopAt := some 200, relock := .retune }, steep := { done with f := none } }

theorem wit_lockDeclared_again : relocking.quiet ∧ relocking.clocked ∧ relocking.eng.kettle.locked = false ∧
    relocking.eng.kettle.loopAt = some ((200 : Nat) : Rat) ∧ relocking.eng.kettle.firstLock = true ∧ relocking.eng.served = false ∧
    relocking.eng.out.chans.length = 4 ∧ calibratedChan relocking.eng 2 = true := ⟨quiet_st _ rfl rfl, ⟨rfl, rfl, rfl⟩, by decide +kernel⟩

theorem wit_unlockDeclared : (st svm).quiet ∧ (st svm).clocked ∧ (st svm).eng.kettle.locked = true := ⟨quiet_st _ rfl rfl, ⟨rfl, rfl, rfl⟩, rfl⟩

theorem wit_unlockDeclared_load : (st ldm).quiet ∧ (st ldm).clocked ∧ (st ldm).eng.kettle.locked = true ∧ (st ldm).eng.mode = .load :=
  ⟨quiet_st _ rfl rfl, ⟨rfl, rfl, rfl⟩, rfl, rfl⟩

/-- The loop at 44.1 kHz, the input locked at 48 kHz since 100 tQ under XFOL. -/
def other : State :=
  st { svm with
    straps := ⟨0, 0, 12, 0⟩, input := { Input.zero with locked := true, row := 5 }, kettle := { locked with fam := .f44, other := some 100 } }

theorem wit_relockAccepted : other.quiet ∧ other.clocked ∧ other.eng.kettle.other = some ((100 : Nat) : Rat) ∧ policy other.eng = .xfol ∧
    other.eng.kettle.relock = .none ∧ other.eng.kettle.locked = true ∧ inputFam other.eng = some other.eng.kettle.fam.other ∧
    100 + 19660800 ≤ 19660900 := ⟨quiet_st _ rfl rfl, ⟨rfl, rfl, rfl⟩, by decide +kernel⟩

/-- The crossfade of the hand-over is still to come, so that it waits for the unmute. -/
def crossing : State :=
  st { svm with
    straps := ⟨0, 0, 12, 0⟩, input := { Input.zero with locked := true, row := 5 }, kettle := { locked with fam := .f44, other := some 100 }
    steep := { done with xAt := some 1003 } }

theorem wit_relockAccepted_crossing : crossing.quiet ∧ crossing.clocked ∧ crossing.eng.steep.xAt = some 1003 ∧ policy crossing.eng = .xfol ∧
    inputFam crossing.eng = some crossing.eng.kettle.fam.other := ⟨quiet_st _ rfl rfl, ⟨rfl, rfl, rfl⟩, by decide +kernel⟩

theorem wit_relockAccepted_not : (st svm).calm ∧ (st svm).eng.kettle.other = none ∧ policy (st svm).eng = .xf48 ∧
    policy (st { svm with straps := ⟨0, 0, 4, 0⟩ }).eng = .xf44 ∧ other.calm ∧ other.eng.kettle.other = some ((100 : Nat) : Rat) ∧
    19660899 < 100 + 19660800 ∧ inputFam follows.eng = some .f44 ∧ (some .f44 ≠ some Fam.f44.other) ∧ (unlocked svm).eng.kettle.locked = false ∧
    relocking.eng.kettle.relock ≠ .none ∧ failed.eng.kettle.down.isSome = true :=
  ⟨rfl, rfl, by decide +kernel, by decide +kernel, rfl, rfl, by decide +kernel⟩

/-- A relock that waits for its retune. -/
def muting : State := st { svm with kettle := { locked with relock := .mute .f44, tRel := 7000000 } }

theorem wit_retuneStart : muting.quiet ∧ muting.clocked ∧ muting.eng.kettle.relock = .mute .f44 ∧
    muting.eng.kettle.tRel = ((7000000 : Nat) : Rat) ∧ muting.eng.strobe.started = true ∧
    ((7000000 : Nat) : Rat) + 786432 ≤ muting.eng.strobe.last := ⟨quiet_st _ rfl rfl, ⟨rfl, rfl, rfl⟩, by decide +kernel⟩

/-- A relock that waits for its unmute; channel 1 has no line that passed and channel 2 does not modulate. -/
def settling : State :=
  st { svm with
    kettle := { locked with relock := .settle }
    out := { svm.out with chans := [line, { line with lines := [{ passing with passed := false }, { passing with passed := false }] }, Chan.zero, line] } }

theorem wit_unmuteStart : settling.quiet ∧ settling.eng.kettle.relock = .settle ∧ settling.eng.kettle.locked = true ∧
    settling.eng.strobe.started = true ∧ settling.eng.kettle.carrier = false ∧
    settling.eng.kettle.tLock + 1966080 ≤ settling.eng.strobe.last ∧ (settling.eng.chan 0).lines.any (·.passed) = true ∧
    settling.eng.out.chans.length = 4 ∧ calibratedChan settling.eng 0 = true ∧ calibratedChan settling.eng 1 = true ∧
    (settling.eng.chan 1).lines.any (·.passed) = false ∧ (settling.eng.chan 1).failEp = false :=
  ⟨quiet_st _ rfl rfl, by decide +kernel⟩

/-- Word-clock tracking under way. -/
def steering (settled : Bool) : State :=
  st { svm with straps := ⟨0, 0, 8, 0⟩, kettle := { locked with track := .steering, settled := settled, phAt := some 4000000 }, now := 400000000 }

theorem wit_trackingSettled : (steering false).running = true ∧ policy (steering false).eng = .wclk ∧
    (steering false).eng.kettle.track = .steering ∧ (steering false).eng.kettle.settled = false ∧
    (steering false).eng.kettle.phAt = some 4000000 ∧ (4000000 : Rat) + msT 1000 ≤ (steering false).eng.now ∧
    ((steering false).eng.kettle.steer - (steering false).eng.kettle.rate).natAbs < 1000000 ∧ (steering true).running = true ∧
    (steering true).eng.kettle.settled = true ∧ (steering true).eng.stamp = (steering true).eng.strobe.n + 1 := by decide +kernel

theorem wit_trackingSettled_calm : (steering false).calm ∧ (steering true).calm := ⟨rfl, rfl⟩

/-- As `steering`, with the rate 1 ppm away. -/
def offRate : State := st { svm with straps := ⟨0, 0, 8, 0⟩, kettle := { locked with track := .steering, rate := 1000000, phAt := some 4000000 } }

theorem wit_trackingSettled_not : offRate.calm ∧ 1000000 ≤ (offRate.eng.kettle.steer - offRate.eng.kettle.rate).natAbs ∧
    policy (st svm).eng ≠ .wclk ∧ (st svm).eng.kettle.track ≠ .steering ∧ (st svm).eng.kettle.phAt = none ∧ (st svm).eng.kettle.settled = false ∧
    offRate.eng.stamp = offRate.eng.strobe.n := ⟨rfl, by decide +kernel⟩

theorem wit_strobeInLoadMode : (st ldm).running = true ∧ (st ldm).eng.mode = .load ∧ nextStrobe (st ldm).eng = some 8100096 := by decide +kernel

/-- A frame of the output FIFO. -/
def frame (n : Nat) (d : Bool) : FrameRec :=
  ⟨n, 0, [], [1#32, 2#32, 3#32, 4#32], List.replicate 4 0#32, List.replicate 4 0#32, List.replicate 4 0#32, [], 0#32, d⟩

/-- Full service with the frames `l` in the output FIFO. -/
def withFrames (l : List FrameRec) : State := st { svc with fifo := { svc.fifo with frames := l, next := some 1002 } }

theorem wit_strobeReleases (l : List FrameRec) : (withFrames l).inService ∧ (withFrames l).eng.mode ≠ .load ∧
    nextStrobe (withFrames l).eng = some 8100096 ∧ (withFrames l).eng.strobe.started = true ∧ 1001 = (withFrames l).eng.strobe.n + 1 ∧
    (withFrames l).eng.steep.p = some 10 ∧ 10 ≤ 1001 ∧ (withFrames l).eng.fifo.muted = false :=
  ⟨inService_st _ rfl rfl rfl, by show svc.mode ≠ .load; decide, by show nextStrobe svc = some 8100096; decide +kernel, rfl, rfl, rfl, by omega, rfl⟩

theorem wit_strobeReleases_frame : (withFrames [frame 1001 true]).eng.fifo.frames.find? (fun f => f.n == 1001 && f.done) = some (frame 1001 true) ∧
    (withFrames []).eng.fifo.frames.find? (fun f => f.n == 1001 && f.done) = none := by decide +kernel

/-- Two misses in a row behind it, the fence on; `m` says whether the outputs are muted after `r` strobes with slack. -/
def missing2 (m : Bool) (r : Nat) (l : List FrameRec) : State :=
  st { svc with
    fifo := { svc.fifo with frames := l, next := some 1005, missRun := 2, muted := m, fullRun := r }, cond := { svc.cond with fenceOn := true } }

/-- R42: the third miss; a mute that goes on with a slack of three frames; one that ends. -/
theorem wit_missesMute : (missing2 false 0 []).eng.cond.fenceOn = true ∧ 2 ≤ (missing2 false 0 []).eng.fifo.missRun ∧
    ((missing2 false 0 []).eng.fifo.frames.find? (fun f => f.n == 1001 && f.done)).isNone = true ∧
    ((List.range 3).all fun k => ((missing2 true 9 ((List.range 4).map fun i => frame (1001 + i) true)).eng.fifo.frames.find?
      (fun f => f.n == 1001 + 1 + k && f.done)).isSome) = true ∧
    (missing2 true 96 []).eng.fifo.muted = true ∧ 96 ≤ (missing2 true 96 []).eng.fifo.fullRun ∧
    nextStrobe (missing2 false 0 []).eng = some 8100096 := by decide +kernel

theorem wit_missesMute_service (m : Bool) (r : Nat) (l : List FrameRec) : (missing2 m r l).inService := inService_st _ rfl rfl rfl

/-- Bring-up at the loop's strobes before B4. -/
def beforeP (b4 : Bool) : State := st { atT0 with kettle := locked, strobe := ⟨true, 5, 6000000, 4⟩, steep := { Steep.zero with b1 := true, b3 := true, b4 := b4 } }

theorem wit_strobesBeforeP (b4 : Bool) : (beforeP b4).quiet ∧ (beforeP b4).eng.mode ≠ .load ∧ nextStrobe (beforeP b4).eng = some 6004096 ∧
    (beforeP b4).eng.strobe.started = true ∧ (beforeP b4).eng.steep.p = none ∧ (beforeP b4).eng.steep.b5 = false :=
  ⟨quiet_st _ rfl rfl, by cases b4 <;> decide +kernel⟩

/-- Two thermos words due by strobe 1001 and one later, with or without a retained fault that waits. -/
def dueWords (d : Bool) : State :=
  st { svc with
    due := [(1000, 1, 7#16), (1001, 2, 1#16), (1005, 3, 9#16)], faults := { svc.faults with last := some (0x1F, (5, 0)), dirty := d } }

theorem wit_strobesWriteTheThermos (d : Bool) : (dueWords d).inService ∧ (dueWords d).eng.mode ≠ .load ∧ nextStrobe (dueWords d).eng = some 8100096 ∧
    (dueWords d).eng.strobe.started = true ∧ 1001 = (dueWords d).eng.strobe.n + 1 ∧ (dueWords d).eng.steep.b4 = true ∧
    (dueWords d).eng.faults.dirty = d ∧ ((dueWords d).eng.due.filter fun x => decide (x.1 ≤ 1001)).length = 2 ∧
    ((dueWords d).eng.due.filter fun x => decide (1001 < x.1)).length = 1 :=
  ⟨inService_st _ rfl rfl rfl, by cases d <;> decide +kernel⟩

/-! P and F. -/

/-- A caddy whose system section enables part 1 and the chime. -/
def chimeMem : Memory := [(0x18, 1#8), (0x400, 1#8)]

/-- Before P, with B4, B5 and B6 done and L at `l`. -/
def beforeChime (l : Nat) : Engine :=
  { atT0 with
    kettle := locked, strobe := ⟨true, 5, 6000000, 4⟩, cond := { atT0.cond with limit := l }
    steep := { Steep.zero with b1 := true, b3 := true, b4 := true, b5 := true, b6 := true } }

theorem sound_rest (e : Engine) (h : e.fifo.frames = []) (p : e.health.parity = []) (n : e.health.news = []) : (st e).sound := by
  refine ⟨fun f hf => ?_, p, n⟩
  rw [show (st e).eng.fifo.frames = [] from h] at hf
  cases hf

theorem wit_strobeP (l : Nat) : (st (beforeChime l)).quiet ∧ nextStrobe (beforeChime l) = some 6004096 ∧ (beforeChime l).steep.p = none ∧
    (beforeChime l).steep.f = none ∧ (beforeChime l).steep.b4 = true ∧ (beforeChime l).steep.b5 = true ∧ (beforeChime l).steep.b6 = true ∧
    (beforeChime l).steep.b9 = false ∧ (st (beforeChime l)).sound ∧ (beforeChime l).cond.fenceOn = false ∧ (beforeChime l).cond.ends = [] ∧
    (beforeChime l).out.chans.length = 4 ∧ (beforeChime l).cond.slots.length = 256 ∧ slotB (sysSlot mem (beforeChime l).image 0x006) = false :=
  ⟨quiet_st _ rfl rfl, by show nextStrobe (beforeChime 0) = some 6004096; decide +kernel, rfl, rfl, rfl, rfl, rfl, rfl, sound_rest _ rfl rfl rfl, rfl, rfl,
    by show atT0.out.chans.length = 4; decide +kernel, by show atT0.cond.slots.length = 256; decide +kernel, by show slotB (sysSlot mem atT0.image 0x006) = false; decide +kernel⟩

theorem wit_strobeP_chime : ({ st (beforeChime 256) with caddy := chimeMem } : State).quiet ∧
    slotB (sysSlot chimeMem (beforeChime 256).image 0x006) = true ∧ 256 ≤ (beforeChime 256).cond.limit ∧ (beforeChime 254).cond.limit < 256 :=
  ⟨⟨rfl, rfl, by show Unbound chimeMem atT0.image; unfold Unbound; decide +kernel⟩, by decide +kernel⟩

/-- The strobe before F, with the messages `h` held. -/
def ripening (h : List Held) : Engine := { svc with steep := { done with f := none, held := h } }

/-- A held CC 7 of channel 1. -/
def heldVolume : Held := ⟨[0xB0#8 ||| (0#4).setWidth 8, 7#8, (100#7).setWidth 8], 9⟩

theorem wit_strobeF (h : List Held) : (st (ripening h)).quiet ∧ nextStrobe (ripening h) = some 8100096 ∧ (st (ripening h)).ripe 1001 ∧
    (ripening h).out.chans.length = 4 ∧ (ripening h).steep.held = h ∧ (ripening h).steep.heldRt = none ∧ (ripening h).steep.irHold = [] ∧
    (ripening h).kettle.relock = .none ∧ partOn mem (ripening h) (partOf 0) = true ∧ (ripening h).parts.length = 16 :=
  ⟨quiet_st _ rfl rfl, by show nextStrobe (ripening []) = some 8100096; decide +kernel,
    ⟨by show atT0.mode ≠ .load; decide, rfl, rfl, rfl, rfl, rfl, rfl, rfl, rfl, .inl rfl, ⟨10, rfl, by omega⟩, sound_rest _ rfl rfl rfl⟩,
    rfl, rfl, rfl, rfl, rfl, by show partOn mem (ripening []) (partOf 0) = true; decide +kernel, rfl⟩

/-- R65: the system section gives entry 3 the function of an output with the level 0xA5, and entry 15 that of an input. -/
def gpF : Memory := [(0x400, 1#8), (0x1060, 2#8), (0x1064, 12#8), (0x1074, 0xA5#8), (0x11E0, 1#8), (0x11E4, 15#8)]

theorem wit_strobeF_pins : gpTakes gpF (ripening []) 3 = true ∧ gpKind gpF (ripening []).image 3 = 2 ∧ gpKind gpF (ripening []).image 15 = 1 ∧
    slotBits 7 0 (gpSlot gpF (ripening []).image 3 5) = 0xA5 ∧ gpTakes gpF { ripening [] with mode := .bench } 15 = false := by decide +kernel

theorem wit_strobeF_relock : { locked with relock := .mute .f44 }.relock = .mute .f44 ∧ { locked with relock := .retune }.relock = .retune := ⟨rfl, rfl⟩

/-- A note-on, another note, the note-off of the first (R190). -/
def heldPair : List Held := [⟨[0x90#8, 60#8, 70#8], 3⟩, ⟨[0x90#8, 61#8, 70#8], 4⟩, ⟨[0x80#8, 60#8, 64#8], 5⟩, ⟨[0xE0#8, 0#8, 64#8], 6⟩]

theorem wit_heldEvents : heldPair = [] ++ ⟨[0x90#8, 60#8, 70#8], 3⟩ :: [⟨[0x90#8, 61#8, 70#8], 4⟩] ++ ⟨[0x80#8, 60#8, 64#8], 5⟩ :: [⟨[0xE0#8, 0#8, 64#8], 6⟩] ∧
    (⟨[0x90#8, 60#8, 70#8], 3⟩ : Held).isNoteOn = true ∧ (⟨[0x80#8, 60#8, 64#8], 5⟩ : Held).isNoteOff = true ∧
    (⟨[0x90#8, 60#8, 70#8], 3⟩ : Held).sameNote ⟨[0x80#8, 60#8, 64#8], 5⟩ = true ∧ (⟨[0x90#8, 61#8, 70#8], 4⟩ : Held).isNoteOff = false ∧
    (⟨[0x90#8, 61#8, 70#8], 4⟩ : Held).sameNote ⟨[0x80#8, 60#8, 64#8], 5⟩ = false ∧
    pairHeld [] heldPair = [⟨[0x90#8, 61#8, 70#8], 4⟩, ⟨[0xE0#8, 0#8, 64#8], 6⟩] := by decide +kernel

/-- R188: what is released at F from those messages and a code of the remote control of the same period. -/
theorem test_heldEvents : heldEvents 1000 { Steep.zero with held := heldPair, irHold := [(⟨1, 2, 3, false⟩, 4)] } =
    [(4, .message [0x90#8, 61#8, 70#8]), (4, .code ⟨1, 2, 3, false⟩), (6, .message [0xE0#8, 0#8, 64#8])] := by decide +kernel

theorem wit_ticksBeforeService : (st ldm).running = true ∧ (st ldm).calm ∧ (st ldm).eng.strobe.started = true ∧
    (st ldm).eng.strobe.tick < 4 ∧ (st ldm).eng.mode = .load := ⟨rfl, rfl, rfl, by decide, rfl⟩

theorem wit_ticksBeforeService_not : (st early).calm ∧ (st early).eng.strobe.started = false ∧ (st svc).calm ∧ 4 ≤ (st svc).eng.strobe.tick :=
  ⟨rfl, rfl, rfl, by decide⟩

theorem wit_frameComputationStarts : (withFrames []).quiet ∧ (withFrames []).eng.fifo.next = some 1002 ∧
    (withFrames []).eng.strobe.started = true ∧ (withFrames []).eng.mode ≠ .load ∧ 1002 ≤ (withFrames []).eng.strobe.n + 4 ∧
    (withFrames []).eng.fifo.frames.length < 4 ∧ ((withFrames []).cellAt 7).badShadow = [] := ⟨quiet_st _ rfl rfl, by decide +kernel⟩

theorem wit_frameComputationStarts_not : 4 ≤ (withFrames (List.replicate 4 (frame 1001 true))).eng.fifo.frames.length ∧
    (st { svc with fifo := { svc.fifo with next := some 1005 } }).eng.strobe.n + 4 < 1005 ∧ (st svc).eng.fifo.next = none := by decide +kernel

/-- A role waits for frame 1003 after its cell stalled. -/
def waitsFor : State :=
  st { svc with fifo := { svc.fifo with next := some 1002 }, health := { svc.health with moves := [⟨3, some 176, .voice 3, 1003, false, true, true⟩] } }

theorem wit_frameComputationStarts_stalled : waitsFor.quiet ∧ waitsFor.eng.fifo.next = some 1002 ∧ waitsFor.eng.strobe.started = true ∧
    waitsFor.eng.mode ≠ .load ∧ 1002 ≤ waitsFor.eng.strobe.n + 4 ∧ waitsFor.eng.fifo.frames.length < 4 ∧
    ⟨3, some 176, .voice 3, 1003, false, true, true⟩ ∈ waitsFor.eng.health.moves := ⟨quiet_st _ rfl rfl, by decide +kernel⟩

theorem wit_frameComputationCompletes : (withFrames [frame 1001 true, frame 1002 false]).running = true ∧
    (withFrames [frame 1001 true, frame 1002 false]).eng.fifo.frames = [frame 1001 true] ++ frame 1002 false :: [] ∧
    (∀ x ∈ [frame 1001 true], x.done = true) ∧ (frame 1002 false).done = false ∧ (frame 1002 false).stuck = [] := by decide +kernel

theorem wit_frameComputationCompletes_not : (withFrames [frame 1001 true]).calm ∧
    ∀ x ∈ (withFrames [frame 1001 true, { frame 1002 false with stuck := [3] }]).eng.fifo.frames, x.done = true ∨ x.stuck ≠ [] :=
  ⟨rfl, by decide +kernel⟩

/-! The contents of frames. -/

/-- Between P and F + 5: passthrough at index 200, frame 1002 next. -/
def passing2 (m : Bool) : Engine :=
  { svc with steep := { done with p := some 990, f := some 1000, xAt := some 1005, index0 := 200, muted0 := m }, fifo := { svc.fifo with next := some 1002 } }

theorem wit_passthroughFrames (m : Bool) : (st (passing2 m)).quiet ∧ (passing2 m).fifo.next = some 1002 ∧ (passing2 m).strobe.started = true ∧
    1002 ≤ (passing2 m).strobe.n + 4 ∧ (passing2 m).fifo.frames = [] ∧ (passing2 m).health.moves = [] ∧ (passing2 m).steep.p = some 990 ∧
    (passing2 m).steep.f = some 1000 ∧ (passing2 m).steep.xAt = some 1005 ∧ (passing2 m).steep.chime = false ∧
    (passing2 m).voices = List.replicate 256 SlotCell.zero ∧ (passing2 m).cond.queues = List.replicate 256 [] ∧ 1002 < 1000 + 5 ∧ 1002 ≤ 1005 :=
  ⟨quiet_st _ rfl rfl, rfl, rfl, by show 1002 ≤ 1000 + 4; omega, rfl, rfl, rfl, rfl, rfl, rfl, rfl, rfl, by omega, by omega⟩

theorem wit_framesTakeTheirEntries : (withFrames []).eng.voices.length = 256 ∧ (withFrames []).eng.cond.queues.length = 256 ∧
    channelUsed (withFrames []).eng.straps.a 0 = true ∧ channelUsed 15 3 = false := by decide +kernel

/-- A slot that sounds a voice in its second frame. -/
def playing : SlotCell :=
  { SlotCell.zero with voice := some ⟨7, 1, none, 60, 100, none, 0, 0, 1, 1, [], [], [], [], [], 0#32, 0, 0#32, 0, 0⟩, word := one32, part := 1 }

theorem wit_voicesPlay : SlotCell.zero.voice = none ∧ playing.voice.isSome = true ∧ (playing.voice.map (·.frame)) ≠ some 0 ∧
    (⟨one32, 31, 0#32, 1⟩ : Tail).k ≤ 31 := by decide +kernel

theorem wit_crossfade : 1004 < 1005 ∧ 1005 + 4800 ≤ 5805 ∧ 1005 ≤ 1006 ∧ 1006 < 1005 + 4800 := by decide

theorem wit_chainsAreSilenced : f32Rat 0#32 = 0 ∧ slotU 0 255 (sysSlot mem atT0.image (chainRecord mem atT0.image 0 0 + 0x62)) = 0 ∧
    slotU 0 3 (sysSlot mem atT0.image (chainRecord mem atT0.image 0 0 + 0x65)) = 0 := by decide +kernel

theorem wit_rampsMove : 0 < 192 ∧ 191 < 192 ∧ 192 ≤ 191 + 1 ∧ 5 < 6 := by decide

/-- R670, R674: -1 of 24 bits at the head of a slot of 32, and the bits of a set of 64. -/
theorem test_digitalBits : msbFirst ((DigFmt.i2s.slotBits (-1)).take 24) = 0xFFFFFF ∧ (DigFmt.i2s.slotBits (-1)).drop 24 = List.replicate 8 false ∧
    (DigFmt.i2s.slotBits (-1)).length = 32 := by decide +kernel

/-- Full service in Play mode with STRAP_A at `a`, frame 1001 complete. -/
def digital (a : Nat) : State :=
  st { svc with
    straps := ⟨a, 0, 0, 0⟩, fifo := { svc.fifo with frames := [frame 1001 true], next := some 1002 }, out := { svc.out with clocks := true } }

theorem sound_digital (a : Nat) : (digital a).sound := by
  refine ⟨fun f hf => ?_, rfl, rfl⟩
  rw [List.mem_singleton.mp hf]
  rfl

theorem wit_digitalWords : (digital 4).inService ∧ (digital 4).eng.mode = .play ∧ nextStrobe (digital 4).eng = some 8100096 ∧
    (digital 4).eng.steep.p = some 10 ∧ (digital 4).sound ∧ (digital 4).eng.fifo.muted = false ∧ (digital 4).eng.health.lost = false ∧
    (digital 4).eng.fifo.frames.find? (fun f => f.n == 1001 && f.done) = some (frame 1001 true) ∧ (digFmt (digital 4).eng.straps.a).isSome = true ∧
    isDigital 4 0 = true := ⟨inService_st _ rfl rfl rfl, rfl, by decide +kernel, rfl, sound_digital 4, by decide +kernel⟩

/-! Bring-up. -/

theorem wit_strapBurst : (st early).running = true ∧ (st early).calm ∧ (st early).eng.served = false ∧ (st early).eng.kettle.crystal = true ∧
    (st early).eng.steep.b1 = false := ⟨rfl, rfl, by decide +kernel⟩

theorem wit_strapBurst_code : 4095 ≤ 4095 := Nat.le_refl _

theorem wit_directoryCheck : (st early).running = true ∧ (st early).calm ∧ (st early).eng.served = false ∧ (st early).eng.steep.b3 = false :=
  ⟨rfl, rfl, by decide +kernel⟩

/-- Bring-up after the steps of `x`. -/
def after (x : Steep) : State := st { early with steep := x }

theorem wit_contentScan : (after { Steep.zero with b3 := true }).running = true ∧ (after { Steep.zero with b3 := true }).calm ∧
    (after { Steep.zero with b3 := true }).eng.served = false ∧ (after { Steep.zero with b3 := true }).eng.steep.b3 = true ∧
    (after { Steep.zero with b3 := true }).eng.steep.b8 = false ∧ (after { Steep.zero with b3 := true }).eng.mode ≠ .load :=
  ⟨rfl, rfl, by decide +kernel⟩

theorem wit_thermosStep : (after { Steep.zero with b1 := true, b3 := true }).running = true ∧ (after { Steep.zero with b1 := true, b3 := true }).calm ∧
    (after { Steep.zero with b1 := true, b3 := true }).eng.served = false ∧ (after { Steep.zero with b1 := true, b3 := true }).eng.mode ≠ .load ∧
    (after { Steep.zero with b1 := true, b3 := true }).eng.steep.b1 = true ∧ (after { Steep.zero with b1 := true, b3 := true }).eng.steep.b3 = true ∧
    (after { Steep.zero with b1 := true, b3 := true }).eng.steep.b4 = false ∧
    (after { Steep.zero with b1 := true, b3 := true }).thermos.words.length = 64 := ⟨rfl, rfl, by decide +kernel⟩

theorem wit_profileFollowsTheStrap : 32768 ≤ 0x8502 ∧ 0x8502 / 256 % 16 = 5 ∧ 0x8502 / 256 % 16 ≠ 6 ∧ 0x0502 < 32768 := by decide

theorem wit_selfTest : (st early).running = true ∧ (st early).calm ∧ (st early).eng.served = false ∧ (st early).eng.mode ≠ .load ∧
    (st early).eng.steep.b5 = false ∧ (st early).eng.steep.halted = false ∧
    2 = ((List.range 192).filter fun i => (([3, 7] : List (Fin 192)).map (·.val)).contains i).length ∧
    (([3, 7] : List (Fin 192)).map (·.val)).contains 3 = true ∧ (([3, 7] : List (Fin 192)).map (·.val)).contains 4 = false :=
  ⟨rfl, rfl, by decide +kernel⟩

/-- Locked in bring-up, before B6 or before B7, with STRAP_A at level `a`. -/
def calibrating (a : Nat) (b6 : Bool) : State :=
  st { atT0 with
    straps := ⟨a, 0, 0, 0⟩, kettle := locked, strobe := ⟨true, 5, 6000000, 4⟩, steep := { Steep.zero with b1 := true, b3 := true, b6 := b6 } }

theorem wit_delayLineCalibration (b6 : Bool) : (calibrating 0 b6).quiet ∧ (calibrating 0 b6).clocked ∧
    (calibrating 0 b6).eng.strobe.started = true ∧ (calibrating 0 b6).eng.steep.b3 = true ∧ (calibrating 0 b6).eng.kettle.locked = true ∧
    (calibrating 0 b6).eng.mode ≠ .load ∧ (calibrating 0 b6).eng.steep.b7 = false ∧ (calibrating 0 b6).eng.out.chans.length = 4 :=
  ⟨quiet_st _ rfl rfl, ⟨rfl, rfl, rfl⟩, rfl, rfl, rfl, by show atT0.mode ≠ .load; decide, rfl, rfl⟩

theorem wit_delayLineCalibration_channel : ((2 ≤ 0 ↔ (calibrating 0 false).eng.steep.b6 = true) ∧ isModulator 0 0 = true) ∧
    ((2 ≤ 2 ↔ (calibrating 0 true).eng.steep.b6 = true) ∧ isModulator 0 2 = true) ∧
    ¬ ((2 ≤ 2 ↔ (calibrating 0 false).eng.steep.b6 = true) ∧ isModulator 0 2 = true) := by decide +kernel

/-- A calibration that leaves rising codes, with the bits `fs` flipped and the reference `d` elements off. -/
def calOf (fs : List (Fin 32 × Fin 7)) (d : Rat) : LineCal := ⟨(List.range 32).map (BitVec.ofNat 6), fs, d⟩

/-- R652: rising codes pass within one element of the reference; a flipped bit fails the line. -/
theorem test_calibration : (calLine (calOf [] 1)).passed = true ∧ (calLine (calOf [] 2)).passed = false ∧
    (calLine (calOf [(7, 6)] 0)).passed = false ∧ (calLine ⟨List.replicate 32 5, [], 0⟩).passed = false ∧ (calOf [] 1).codes.length = 32 := by
  decide +kernel

theorem wit_partPreparation : (after { Steep.zero with b4 := true, b5 := true, b8 := true }).running = true ∧
    (after { Steep.zero with b4 := true, b5 := true, b8 := true }).calm ∧ (after { Steep.zero with b4 := true, b5 := true, b8 := true }).eng.steep.b5 = true ∧
    (after { Steep.zero with b4 := true, b5 := true, b8 := true }).eng.steep.b8 = true ∧
    (after { Steep.zero with b4 := true, b5 := true, b8 := true }).eng.steep.b4 = true ∧
    (after { Steep.zero with b4 := true, b5 := true, b8 := true }).eng.steep.b9 = false := ⟨rfl, rfl, by decide +kernel⟩

theorem wit_steepLate : (st early).running = true ∧ (st early).calm ∧ (st early).eng.mode ≠ .load ∧ (st early).eng.served = false ∧
    (st early).eng.steep.late = false ∧ (98304000 : Nat) ≤ 98304000 ∧ (st svc).eng.served = true := ⟨rfl, rfl, by decide +kernel⟩

/-- The chime plays; its end comes at 8096001 tQ, before the next strobe. -/
def chiming : State := st { svc with now := 8096000, steep := { done with chime := true, chimeEnd := 8096001 } }

theorem wit_chimeEnd : chiming.running = true ∧ chiming.calm ∧ chiming.eng.steep.chime = true ∧ nextStrobe chiming.eng = some 8100096 ∧
    chiming.eng.steep.chimeEnd < 8100096 := ⟨rfl, rfl, by decide +kernel⟩

/-- The chime goes on past the next strobe. -/
def chimingOn : State := st { svc with now := 8096000, steep := { done with chime := true, chimeEnd := 8100096 } }

theorem wit_chimeEnd_not : (st svc).calm ∧ (st svc).eng.steep.chime = false ∧ chimingOn.calm ∧ chimingOn.eng.now < chimingOn.eng.steep.chimeEnd ∧
    ∀ t, nextStrobe chimingOn.eng = some t → t ≤ chimingOn.eng.steep.chimeEnd := by
  refine ⟨rfl, rfl, rfl, by decide +kernel, fun t h => ?_⟩
  have h' : nextStrobe chimingOn.eng = some 8100096 := by decide +kernel
  rw [h'] at h
  cases h
  decide +kernel

/-- The strobe at which the slot of channel 0 of the dial scan ends. -/
def scan : State := st { svc with strobe := ⟨true, 100, 8096000, 0⟩ }

theorem wit_conversion : scan.quiet ∧ scan.eng.mode ≠ .load ∧ scan.eng.strobe.started = true ∧ scan.eng.dials.done ≠ some scan.eng.strobe.n ∧
    slotAt scan.eng.strobe.n = some 0 ∧ scan.eng.dials.chans.length = 16 ∧ 0 < 3200000 := ⟨quiet_st _ rfl rfl, by decide +kernel⟩

/-! The event port. -/

theorem wit_receiverArmed : (after { Steep.zero with b1 := true }).running = true ∧ (after { Steep.zero with b1 := true }).eng.kettle.crystal = true ∧
    (after { Steep.zero with b1 := true }).eng.steep.b1 = true ∧ (after { Steep.zero with b1 := true }).eng.link.armed = false ∧
    (after { Steep.zero with b1 := true }).eng.kettle.crystalAt + usT (if autobaud (after { Steep.zero with b1 := true }).eng.straps = true then 1074 else 320) ≤
      ((125830 : Nat) : Rat) := by decide +kernel

/-- A receiver in sync state. -/
def syncing : State := st { svc with link := { port with sync := true } }

/-- The edges of a character 0x55 with bits of 12583 tQ. -/
def syncEdges : List Nat := (List.range 10).map fun i => 1000 + 12583 * i

theorem wit_syncCharacter : syncing.quiet ∧ syncing.eng.link.armed = true ∧ syncing.eng.link.sync = true ∧ syncOk syncEdges true = true ∧
    syncing.eng.link.cand = [] ∧ syncing.eng.link.candFrom ≤ ((nth 0 syncEdges 0 : Nat) : Rat) ∧
    (syncOk (syncEdges.take 3) true && candOwn (syncEdges.take 3) syncing.eng) = false ∧
    (candRun syncing.eng.link.candFrom syncing.eng.link.cand (syncEdges.take 3)).1.length < 10 ∧ deglitch syncEdges = syncEdges :=
  ⟨quiet_st _ rfl rfl, by decide +kernel⟩

theorem wit_receiver_calm : (after { Steep.zero with b1 := true }).calm ∧ (st svc).calm ∧ (st svc).eng.link.sync = false := ⟨rfl, rfl, rfl⟩

/-- R259: at 5 tQ both edges of the pulse are ignored, at 6 tQ they count. -/
theorem test_deglitch : deglitch [1000, 1005, 13583] = [13583] ∧ deglitch [1000, 1006] = [1000, 1006] ∧ 1000000000 * (1005 - 1000) < 15 * 393216000 ∧
    15 * 393216000 ≤ 1000000000 * (1006 - 1000) := by decide +kernel

theorem wit_syncCandidateRejected_state : syncing.quiet ∧ syncing.eng.link.armed = true ∧ syncing.eng.link.sync = true :=
  ⟨quiet_st _ rfl rfl, rfl, rfl⟩

/-- R268: a start bit longer than 134.3 µs rejects its candidate; three edges of a good one do not. -/
theorem wit_syncCandidateRejected : (candRun syncing.eng.link.candFrom syncing.eng.link.cand [1000]).1 = [1000] ∧ candDead [1000] 60000 = true ∧
    (candRun syncing.eng.link.candFrom syncing.eng.link.cand (syncEdges.take 3)).1 = syncEdges.take 3 ∧ candDead (syncEdges.take 3) 30000 = false := by
  decide +kernel

/-- The samples of a character with data byte `b`. -/
def samplesOf (b : Nat) : BitVec 10 := BitVec.ofNat 10 (512 + 2 * b)

theorem wit_character : (st svc).quiet ∧ (st svc).eng.mode ≠ .load ∧ armedAt ((9 : Nat) : Rat) (st svc).eng = true ∧
    (st svc).eng.link.tr = some (12582912 / 1000) ∧ (samplesOf 0x90).getLsbD 0 = false ∧ (samplesOf 0x90).getLsbD 9 = true ∧
    0x80 ≤ ((samplesOf 0x90).extractLsb' 1 8).toNat ∧ ((samplesOf 0x90).extractLsb' 1 8).toNat < 0xF0 :=
  ⟨quiet_st _ rfl rfl, by decide +kernel⟩

theorem wit_character_not : (st svc).calm ∧ (1#10).getLsbD 0 = true ∧ (0#10).getLsbD 0 = false ∧ (0#10).getLsbD 9 = false := ⟨rfl, by decide⟩

/-- A line that has been quiet since 10 tQ. -/
def quietLine : State := st { svc with link := { port with ref := some 10 } }

theorem wit_framingError : (st svc).quiet ∧ armedAt ((10 : Nat) : Rat) quietLine.eng = true ∧ armedAt ((9 : Nat) : Rat) quietLine.eng = false ∧
    quietLine.calm := ⟨quiet_st _ rfl rfl, by decide +kernel, by decide +kernel, rfl⟩

theorem wit_idleLine : quietLine.running = true ∧ quietLine.eng.mode ≠ .load ∧ quietLine.eng.link.ref = some 10 ∧
    quietLine.eng.link.tr = some (12582912 / 1000) ∧ quietLine.eng.link.sync = false ∧
    (10 : Rat) + 10 * (12582912 / 1000) ≤ ((200000 : Nat) : Rat) := by decide +kernel

/-- R302: a character with its start edge at 200000 waits behind the idle line of that instant. -/
theorem wit_idleLine_edges : edgeBy 200000 quietLine.eng [.character 0 ⟨200000, 200000⟩] = true ∧ edgeBy 200000 quietLine.eng [] = false ∧
    edgeBy 199999 quietLine.eng [.character 0 ⟨200000, 200000⟩] = false := by decide +kernel

/-- Before F, with `k` bytes held in messages of three. -/
def steepWith (k : Nat) : State :=
  st { svc with steep := { done with f := none, held := List.replicate k ⟨[0x90#8, 60#8, 70#8], 3⟩ } }

theorem steeping_with (k t : Nat) : (steepWith k).steeping t := ⟨rfl, rfl, rfl, rfl, rfl, rfl, rfl⟩

theorem wit_steepHoldsMessages : (steepWith 0).steeping 9 ∧
    heldBytes (steepWith 0).eng.steep.held + [0x93#8, 60#8, 70#8].length ≤ 512 ∧ heldBytes (steepWith 169).eng.steep.held + 3 ≤ 512 :=
  ⟨steeping_with 0 9, by decide +kernel⟩

/-- One command of each kind of channel message, with instant 9. -/
def messages : List Instr :=
  [.noteOff 3 60 70 9, .noteOn 3 60 70 9, .polyKeyPressure 3 60 70 9, .controlChange 3 1 2 9, .bankSelectMsb 3 2 9, .dataEntryMsb 3 2 9,
   .dataEntryLsb 3 2 9, .partVolume 3 2 9, .pan 3 2 9, .macros 3 2 2 9, .sustain 3 2 9, .portamento 3 2 9, .sostenuto 3 2 9,
   .rpnSelect 3 true 2 9, .nrpnSelect 3 true 2 9, .allSoundOff 3 2 9, .resetAllControllers 3 2 9, .allNotesOff 3 2 2 9, .programChange 3 2 9,
   .channelPressure 3 2 9, .pitchBend 3 2 5 9]

theorem wit_messages : messages.all (fun i => (channelMessage i).isSome) = true := by decide +kernel

theorem wit_realTime : [Instr.timingClock 9, .startPlay 9, .continuePlay 9, .stopPlay 9, .ignoredRealTime 0 9].all
    (fun i => (realTimeMessage i).isSome) = true ∧ (steepWith 0).running = true ∧ (steepWith 0).eng.served = false ∧
    midiDue 9 (steepWith 0).eng = true := by decide +kernel

theorem wit_steepHoldsTransport_calm : (steepWith 0).calm := rfl

theorem wit_steepDropsNoteOns : (steepWith 170).steeping 9 ∧ (70 : BitVec 7) ≠ 0 ∧ 509 < heldBytes (steepWith 170).eng.steep.held :=
  ⟨steeping_with 170 9, by decide +kernel⟩

theorem wit_heldNoteOnsMakeRoom : (steepWith 170).steeping 9 ∧ channelMessage (.controlChange 3 1 2 9) = some ([0xB3#8, 1#8, 2#8], 9) ∧
    (⟨[0xB3#8, 1#8, 2#8], 0⟩ : Held).isNoteOn = false ∧ 512 < heldBytes (steepWith 170).eng.steep.held + 3 ∧
    makeRoom 3 512 (steepWith 170).eng.steep.held = List.replicate 169 ⟨[0x90#8, 60#8, 70#8], 3⟩ ∧
    heldBytes (List.replicate 169 ⟨[0x90#8, 60#8, 70#8], 3⟩) + 3 ≤ 512 ∧ (⟨[0x90#8, 60#8, 70#8], 3⟩ : Held).isNoteOn = true ∧
    (steepWith 170).eng.steep.held = [] ++ ⟨[0x90#8, 60#8, 70#8], 3⟩ :: List.replicate 169 ⟨[0x90#8, 60#8, 70#8], 3⟩ ∧
    (steepWith 170).eng.steep.held.length ≤ 512 := ⟨steeping_with 170 9, by decide +kernel⟩

/-- Where only other messages are held, the message itself is lost. -/
theorem wit_heldNoteOnsMakeRoom_not : (∀ x ∈ List.replicate 171 (⟨[0xB0#8, 1#8, 2#8], 3⟩ : Held), x.isNoteOn = false) ∧
    512 < heldBytes (List.replicate 171 (⟨[0xB0#8, 1#8, 2#8], 3⟩ : Held)) + 3 := by decide +kernel

theorem wit_disabledParts : (st svc).hears 9 ∧ partOn (st svc).caddy (st svc).eng (0x93 % 16 + 1) = false ∧
    channelMessage (.noteOn 3 60 70 9) = some ([0x93#8, 60#8, 70#8], 9) := ⟨hears_svc 9, by decide +kernel⟩

theorem wit_systemMessages : (st svc).quiet ∧ (st svc).listening 9 ∧ ([5, 6] : List (BitVec 7)).length = nth 0 [1, 2, 1, 0, 0, 0, 0] 1 ∧
    (st svc).eng.served = true := ⟨quiet_st _ rfl rfl, (hears_svc 9).2, by decide⟩

/-! Control changes. -/

theorem wit_controllers : (st svc).hears 9 ∧ partOn (st svc).caddy (st svc).eng (partOf 0) = true ∧ (7 : Nat) < 120 ∧
    [0, 6, 38, 65, 98, 99, 100, 101, 64, 66, 16, 17, 18, 19, 80, 81, 82, 83].contains 7 = false ∧ 64 ≤ (100#7).toNat :=
  ⟨hears_svc 9, by decide +kernel⟩

/-- Full service with the record `r` of part 1. -/
def withPart (r : PartRec) : Engine := { svc with parts := svc.parts.set 0 r }

theorem hears_part (r : PartRec) : (st (withPart r)).hears 9 := hears_st 9 _ rfl rfl rfl ⟨rfl, rfl, rfl, rfl⟩

/-- The registered parameter `m`, `l` selected. -/
def rpn (m l : Nat) : PartRec := { PartRec.zero with rpnMsb := m, rpnLsb := l }

theorem wit_dataEntry (m l : Nat) : (st (withPart (rpn m l))).hears 9 ∧ (st (withPart (rpn m l))).eng.part (partOf 0) = rpn m l :=
  ⟨hears_part _, rfl⟩

theorem wit_dataEntry_part : partOn (st svc).caddy (withPart (rpn 0 0)) (partOf 0) = true ∧ (rpn 127 127).rpnMsb ≠ 0 ∧ 2 < (rpn 0 3).rpnLsb := by
  decide +kernel

theorem wit_macros : (st svc).hears 9 ∧ partOn (st svc).caddy (st svc).eng (partOf 0) = true ∧ (0#4).toNat < (st svc).eng.parts.length ∧
    driven (st svc).caddy (st svc).eng (partOf 0) 2 = false := ⟨hears_svc 9, by decide +kernel⟩

/-- A system section that enables part 1 and drives its macro 2. -/
def driveMem : Memory := [(0x400, 1#8), (0x16A0, 1#8), (0x16A4, 2#8), (0x16AA, 0x20#8), (0x16AB, 0xC2#8)]

theorem wit_macros_driven : ({ st svc with caddy := driveMem } : State).hears 9 ∧ partOn driveMem svc (partOf 0) = true ∧
    driven driveMem svc (partOf 0) 1 = true :=
  ⟨⟨⟨⟨rfl, rfl, by show Unbound driveMem atT0.image; unfold Unbound; decide +kernel⟩, rfl⟩, (hears_svc 9).2⟩, by decide +kernel⟩

/-- A slot record of part 1 that sounds `note` in slot `i`. -/
def sounding (note i : Nat) : SlotRec := ⟨7, 1, note, none, 0, 2, [i], .held, 3, 4, false, 64⟩

/-- The engine with `r` in slot `i`. -/
def withSlot (i : Nat) (r : SlotRec) (e : Engine) : Engine := { e with cond := { e.cond with slots := e.cond.slots.set i ⟨some r, 0⟩ } }

theorem hears_slot (i : Nat) (r : SlotRec) (q : PartRec) : (st (withSlot i r (withPart q))).hears 9 := hears_st 9 _ rfl rfl rfl ⟨rfl, rfl, rfl, rfl⟩

/-- CC 66 at 100. -/
def sost : PartRec := { PartRec.zero with cc := PartRec.zero.cc.set 66 100 }

theorem wit_pedals : (st (withSlot 5 (sounding 60 5) (withPart PartRec.zero))).hears 9 ∧
    partOn mem (withSlot 5 (sounding 60 5) (withPart PartRec.zero)) (partOf 0) = true ∧
    (withSlot 5 (sounding 60 5) (withPart PartRec.zero)).keys (partOf 0) = [] ∧
    (∀ x ∈ (withSlot 5 (sounding 60 5) (withPart PartRec.zero)).ofPart (partOf 0), x.2.state ≠ .deferred) ∧
    (withSlot 5 (sounding 60 5) (withPart PartRec.zero)).tempo.keys.length = 16 ∧
    (withSlot 5 (sounding 60 5) (withPart PartRec.zero)).occ 5 = some (sounding 60 5) ∧ nth 0 PartRec.zero.cc 66 < 64 ∧
    64 ≤ nth 0 sost.cc 66 := ⟨hears_slot .., by decide +kernel⟩

theorem wit_pedals_sost : (st (withSlot 5 (sounding 60 5) (withPart sost))).hears 9 ∧
    (withSlot 5 (sounding 60 5) (withPart sost)).keys (partOf 0) = [] ∧
    (∀ x ∈ (withSlot 5 (sounding 60 5) (withPart sost)).ofPart (partOf 0), x.2.state ≠ .deferred) ∧
    (withSlot 5 (sounding 60 5) (withPart sost)).part (partOf 0) = sost := ⟨hears_slot .., by decide +kernel⟩

/-! Notes. -/

theorem wit_noteStarts : NoteStarts 0 60 9 0 (st svc) ∧ (100#7) ≠ 0 := ⟨⟨hears_svc 9, by decide +kernel⟩, by decide⟩

theorem wit_noteSounds : NoteSounds 0 60 9 5 (sounding 60 5) (st (withSlot 5 (sounding 60 5) (withPart PartRec.zero))) ∧
    (sounding 60 5).latched = false ∧ (withSlot 5 (sounding 60 5) (withPart PartRec.zero)).ccOf (partOf 0) 64 < 64 ∧
    ((withSlot 5 (sounding 60 5) (withPart PartRec.zero)).queue 5).all (fun e => !e.isPressure) = true :=
  ⟨⟨hears_slot .., by decide +kernel⟩, by decide +kernel⟩

theorem wit_noteSounds_latched : NoteSounds 0 60 9 5 { sounding 60 5 with latched := true }
    (st (withSlot 5 { sounding 60 5 with latched := true } (withPart PartRec.zero))) := ⟨hears_slot .., by decide +kernel⟩

/-- A system section that enables part 1, and a patch with the voice mode `m` and the cap `k`. -/
def modeMem (m k : Nat) : Memory := [(0x400, 1#8), (0x10010, BitVec.ofNat 8 m), (0x10014, BitVec.ofNat 8 k)]

/-- Full service with that patch on part 1. -/
def patched : Engine := withPart { PartRec.zero with patch := some 0x10000 }

theorem unbound_mode : Unbound (modeMem 0 1) atT0.image ∧ Unbound (modeMem 1 8) atT0.image ∧ Unbound (modeMem 2 8) atT0.image ∧
    Unbound (modeMem 3 8) atT0.image ∧ Unbound (modeMem 0 8) atT0.image := by
  unfold Unbound
  decide +kernel

/-- Full service with the caddy `c` and the engine `e`. -/
def caddied (c : Memory) (e : Engine) : State := { st e with caddy := c }

theorem hears_caddied (c : Memory) (e : Engine) (h : Unbound c atT0.image) (hi : e.image = atT0.image) (hq : e.evq = []) (hs : e.served = true)
    (hl : (st e).listening 9) : (caddied c e).hears 9 := ⟨⟨⟨rfl, hq, by show Unbound c e.image; rw [hi]; exact h⟩, hs⟩, hl⟩

/-- A voice of part 1 in slot 5. -/
def five : Engine := withSlot 5 (sounding 60 5) patched

/-- Every slot taken by a voice of part 2 of class `k`. -/
def crowded (k : Nat) : Engine :=
  { svc with cond := { svc.cond with slots := (List.range 256).map fun i => ⟨some { sounding 70 i with part := 2, cls := k, stamp := i }, 0⟩ } }

theorem hears_five (c : Memory) (h : Unbound c atT0.image) : (caddied c five).hears 9 := hears_caddied c _ h rfl rfl rfl ⟨rfl, rfl, rfl, rfl⟩

/-- At the cap of one voice the part's own voice is the pool. -/
theorem wit_notesSteal_cap : NoteComes 0 9 0 (caddied (modeMem 0 1) five) ∧ (100#7) ≠ 0 ∧
    (∀ x ∈ five.ofPart (partOf 0), x.2.note ≠ (62#7).toNat ∨ x.2.state = .released) ∧ partCap (modeMem 0 1) five (partOf 0) = 1 ∧
    (five.ofPart (partOf 0)).length = 1 ∧ five.ofPart (partOf 0) = [(5, sounding 60 5)] ∧ (sounding 60 5).group = [5] ∧ (sounding 60 5).cls ≤ 3 :=
  ⟨⟨hears_five _ unbound_mode.1, by decide +kernel⟩, by decide +kernel⟩

theorem wit_notesSteal_cap_room : QueueHasRoom (caddied (modeMem 0 1) five) 5 := by
  show ((five.queue 5).filter Entry.counts).length < 16
  decide +kernel

/-- Without a free slot the voice of the earliest stamp is the one that Table 10-4 ranks first. -/
theorem wit_notesSteal_full : NoteComes 0 9 0 (st (crowded 2)) ∧ (crowded 2).ofPart (partOf 0) = [] ∧ ((crowded 2).seen ((9 : Nat) : Rat)).freeSlots = [] ∧
    (0, { sounding 70 0 with part := 2, cls := 2, stamp := 0 }) ∈ (crowded 2).occupied.filter (fun x => x.2.part != 0 && x.2.cls != 0) ∧
    (∀ x ∈ (crowded 2).occupied, x.2.group = [x.1] ∧ x.2.cls ≤ 3) ∧ ∀ x ∈ (crowded 2).occupied, x.1 = 0 ∨ 0 < x.2.stamp :=
  ⟨⟨hears_st 9 _ rfl rfl rfl ⟨rfl, rfl, rfl, rfl⟩, by decide +kernel⟩, by decide +kernel⟩

theorem wit_notesAreDiscarded : NoteComes 0 9 0 (st (crowded 0)) ∧ ((crowded 0).seen ((9 : Nat) : Rat)).freeSlots = [] ∧
    (crowded 0).ofPart (partOf 0) = [] ∧ 0 < partCap mem (crowded 0) (partOf 0) ∧ ∀ x ∈ (crowded 0).occupied, x.2.part = 0 ∨ x.2.cls = 0 :=
  ⟨⟨hears_st 9 _ rfl rfl rfl ⟨rfl, rfl, rfl, rfl⟩, by decide +kernel⟩, by decide +kernel⟩

theorem wit_notesRestrike : NoteComes 0 9 0 (caddied (modeMem 0 8) five) ∧ five.occupied = [(5, sounding 60 5)] ∧ (sounding 60 5).part = partOf 0 ∧
    (sounding 60 5).note = (60#7).toNat ∧ (sounding 60 5).state ≠ .released ∧ 2 ≤ partCap (modeMem 0 8) five (partOf 0) ∧
    (five.seen ((9 : Nat) : Rat)).freeSlots.head? = some 0 := ⟨⟨hears_five _ unbound_mode.2.2.2.2, by decide +kernel⟩, by decide +kernel⟩

theorem wit_unison : NoteComes 0 9 1 (caddied (modeMem 1 8) patched) ∧
    2 = min (slotU 2 8 (patchSlot (modeMem 1 8) (patched.part (partOf 0)).patch 0x009)) (partCap (modeMem 1 8) patched (partOf 0)) ∧
    (patched.seen ((9 : Nat) : Rat)).freeSlots.take 2 = [0, 1] ∧ patched.ofPart (partOf 0) = [] :=
  ⟨⟨hears_caddied _ _ unbound_mode.2.1 rfl rfl rfl ⟨rfl, rfl, rfl, rfl⟩, by decide +kernel⟩, by decide +kernel⟩

/-- A mono or legato voice of part 1 in slot 5 that sounds `n`, with the stack `l`. -/
def mono (m n : Nat) (l : List Nat) : Engine :=
  { withSlot 5 { sounding n 5 with vmode := m } patched with
    cond := { (withSlot 5 { sounding n 5 with vmode := m } patched).cond with noteStacks := patched.cond.noteStacks.set 0 l } }

theorem wit_mono_first : NoteComes 0 9 2 (caddied (modeMem 2 8) patched) ∧ patched.ofPart (partOf 0) = [] ∧ patched.stack (partOf 0) = [] ∧
    1 ≤ partCap (modeMem 2 8) patched (partOf 0) := ⟨⟨hears_caddied _ _ unbound_mode.2.2.1 rfl rfl rfl ⟨rfl, rfl, rfl, rfl⟩, by decide +kernel⟩, by decide +kernel⟩

/-- A key below the top, the top key, and the only key of a mono part and of a legato part. -/
theorem wit_mono : MonoSounds 0 9 2 5 { sounding 62 5 with vmode := 2 } [60, 62] (caddied (modeMem 2 8) (mono 2 62 [60, 62])) ∧
    MonoSounds 0 9 3 5 { sounding 62 5 with vmode := 3 } [62] (caddied (modeMem 3 8) (mono 3 62 [62])) ∧ [60, 62] = [] ++ [60, (62#7).toNat] ∧
    [60, 62] = (60#7).toNat :: [] ++ [62] ∧ (64#7).toNat ∉ [60, 62] ∧ (mono 3 62 [62]).ccOf (partOf 0) 64 < 64 :=
  ⟨⟨⟨hears_caddied _ _ unbound_mode.2.2.1 rfl rfl rfl ⟨rfl, rfl, rfl, rfl⟩, by decide +kernel⟩, .inl rfl, by unfold QueueHasRoom; decide +kernel⟩,
    ⟨⟨hears_caddied _ _ unbound_mode.2.2.2.1 rfl rfl rfl ⟨rfl, rfl, rfl, rfl⟩, by decide +kernel⟩, .inr rfl, by unfold QueueHasRoom; decide +kernel⟩,
    by decide +kernel⟩

/-- Ten voices, the fence on, and `k` frames complete past the next strobe. -/
def shedding (k : Nat) : Engine :=
  { svc with
    fifo := { svc.fifo with frames := (List.range (k + 1)).map fun i => frame (1001 + i) true, next := some 1006 }
    cond := { svc.cond with
      fenceOn := true, lastShed := some 990
      slots := (List.range 256).map fun i => if i < 10 then ⟨some { sounding (40 + i) i with stamp := i }, 0⟩ else Slot.empty } }

theorem wit_fenceSheds (k : Nat) (h : k < 2) : (st (shedding k)).inService ∧ nextStrobe (shedding k) = some 8100096 ∧ (shedding k).strobe.started = true ∧
    (shedding k).steep.p = some 10 ∧ (shedding k).cond.fenceOn = true ∧ (shedding k).cond.lastShed = some 990 ∧ 990 + 4 < 1001 ∧
    k = ((List.range 3).filter fun j => ((shedding k).fifo.frames.find? (fun f => f.n == 1001 + 1 + j && f.done)).isSome).length ∧
    (∀ f ∈ (shedding k).fifo.frames, f.stuck = []) ∧ (shedding k).cond.ends = [] ∧ (shedding k).occupied.length = 10 ∧
    ∀ x ∈ (shedding k).occupied, x.2.group = [x.1] ∧ x.2.cls ≤ 3 := by
  refine ⟨inService_st _ rfl rfl rfl, ?_⟩
  match k, h with
  | 0, _ => decide +kernel
  | 1, _ => decide +kernel

theorem wit_fenceRises : (shedding 0).cond.run96 = 0 ∧ { (shedding 0).cond with ceiling := some 6, run96 := 95 }.ceiling = some 6 ∧ 0 < 95 := by
  decide +kernel

/-- A queue of slot 5 with sixteen entries, `l` first. -/
def fullQueue (l : List Entry) : Engine :=
  (withSlot 5 (sounding 60 5) svc).setQueue 5 (l ++ List.replicate (16 - l.length) ⟨1005, 7, .release 64⟩)

/-- A pressure entry, a start and a release in a queue without room. -/
theorem wit_fullQueues : 5 < (fullQueue []).cond.queues.length ∧ (((fullQueue []).queue 5).filter Entry.counts).length = 16 ∧
    (∀ y ∈ (fullQueue []).queue 5, y.isPressure = false) ∧ (∀ y ∈ (fullQueue []).queue 5, y.isStart = false) ∧
    (((fullQueue [⟨1005, 7, .pressure 9⟩]).queue 5).filter Entry.counts).length = 16 ∧ (⟨1005, 7, .pressure 9⟩ : Entry).isPressure = true ∧
    (⟨1006, 7, .noteOn 1 60 100 none 0 1 none⟩ : Entry).isStart = true ∧ (⟨1006, 7, .noteOn 1 60 100 none 0 1 none⟩ : Entry).counts = true ∧
    (((fullQueue [⟨1005, 7, .noteOn 1 60 100 none 0 1 none⟩]).queue 5).filter Entry.counts).length = 16 ∧ (⟨1006, 7, .release 3⟩ : Entry).isEnd = true ∧
    (fullQueue []).occ 5 = some (sounding 60 5) ∧ (sounding 60 5).id = 7 ∧ (fullQueue []).occupied = [(5, sounding 60 5)] := by decide +kernel

theorem wit_fullQueues_pressure : (st (fullQueue [])).hears 9 ∧ partOn (st (fullQueue [])).caddy (st (fullQueue [])).eng (partOf 0) = true ∧
    (sounding 60 5).note = (60#7).toNat ∧ (sounding 60 5).part = partOf 0 := ⟨hears_st 9 _ rfl rfl rfl ⟨rfl, rfl, rfl, rfl⟩, by decide +kernel⟩

theorem wit_keyPressure_none : (st svc).hears 9 ∧ ∀ x ∈ (st svc).eng.ofPart (partOf 0), x.2.note ≠ (60#7).toNat ∨ x.2.state = .released :=
  ⟨hears_svc 9, by decide +kernel⟩

theorem wit_pressureAndBend : (st svc).hears 9 ∧ partOn (st svc).caddy (st svc).eng (partOf 0) = true := ⟨hears_svc 9, by decide +kernel⟩

theorem wit_programChange : (st svc).hears 9 ∧ partOn (st svc).caddy (st svc).eng (partOf 0) = true ∧ (0#4).toNat < (st svc).eng.parts.length ∧
    ((st svc).eng.part (partOf 0)).latch = none ∧ defaultBank (st svc).eng.straps = 0 := ⟨hears_svc 9, by decide +kernel⟩

theorem wit_programChange_latch (l : Option Nat) : (st (withPart { PartRec.zero with latch := some l })).hears 9 ∧
    ((st (withPart { PartRec.zero with latch := some l })).eng.part (partOf 0)).latch = some l := ⟨hears_part _, rfl⟩

theorem wit_channelMode : (st svc).hears 9 ∧ partOn (st svc).caddy (st svc).eng (partOf 0) = true ∧ (st svc).eng.cond.slots.length = 256 ∧
    (st svc).eng.cond.noteStacks.length = 16 ∧ (st svc).eng.occupied = [] ∧ (st svc).eng.keys (partOf 0) = [] ∧
    (st svc).eng.tempo.keys.length = 16 ∧ (st svc).eng.stack (partOf 0) = [] := ⟨hears_svc 9, by decide +kernel⟩

theorem wit_channelMode_note : NoteSounds 0 60 9 5 (sounding 60 5) (st (withSlot 5 (sounding 60 5) (withPart PartRec.zero))) ∧
    (st (withSlot 5 (sounding 60 5) (withPart PartRec.zero))).eng.stack (partOf 0) = [] := ⟨wit_noteSounds.1, by decide +kernel⟩

/-! Clocks. -/

theorem wit_clocks : (st svc).quiet ∧ midiDue 9 (st svc).eng = true ∧ (st svc).eng.served = true ∧
    realTimeMessage (.timingClock 9) = some (0xF8#8, 9) ∧
    (0xF8#8, CWrite.clock) ∈ [(0xF8#8, CWrite.clock), (0xFA#8, .start), (0xFB#8, .resume), (0xFC#8, .stop)] ∧
    slotE 1 0 (sysSlot mem atT0.image 0x004) = 0 := ⟨quiet_st _ rfl rfl, by decide +kernel⟩

theorem wit_clocks_auto : ({ st svc with caddy := [(0x10, 1#8)] } : State).quiet ∧ slotE 1 0 (sysSlot [(0x10, 1#8)] atT0.image 0x004) = 1 :=
  ⟨⟨rfl, rfl, by show Unbound [(0x10, 1#8)] atT0.image; unfold Unbound; decide +kernel⟩, by decide +kernel⟩

/-- External mode after 300 ms without a clock. -/
def external : State := st { svc with tempo := { svc.tempo with ext := true, quietAt := 1000, k := some 7 } }

theorem wit_externalModeExit : external.running = true ∧ external.eng.tempo.ext = true ∧ external.eng.tempo.ctrs.length = 16 ∧
    external.eng.tempo.quietAt + msT 300 ≤ max external.eng.now ((117965800 : Nat) : Rat) := ⟨rfl, rfl, rfl, by decide +kernel⟩

/-- A counter with CNT `n`. -/
def ctrAt (n : Nat) : Ctr := ⟨n, 7, 7, true, 0, 0, false, none, none, 0, none, false, 0, 0, 0, 0, none⟩

theorem wit_counterStep : (ctrAt 8).cnt < 0x1000000 ∧ 1 < (ctrAt 8).cnt ∧ (ctrAt 1).cnt = 1 := by decide

/-- Full service before the second tick of a frame, counters 9 and 10 running and free of masters, gates and compare values. -/
def counting (m : Mode) : Engine :=
  let run : Ctr := { ctrAt 8 with cmp := 0, run := true, gate := 0, master := none }
  { svc with
    mode := m, strobe := { svc.strobe with tick := 1 }
    tempo := { svc.tempo with ctrs := (((List.replicate 16 { run with run := false }).set 9 run).set 10 { run with cnt := 2 }) } }

theorem wit_counterTick (m : Mode) (h : m ≠ .load) : (st (counting m)).inService ∧ (st (counting m)).eng.mode ≠ .load ∧
    (st (counting m)).eng.strobe.started = true ∧ (1 : Nat) = (st (counting m)).eng.strobe.tick ∧ 1 < 4 ∧
    ((st (counting m)).eng.steep.f = some (st (counting m)).eng.strobe.n → 1 ≠ 0) ∧ (st (counting m)).eng.tempo.catchTo = none ∧
    (st (counting m)).eng.tempo.writes = [] ∧ (∀ k < 16, gpInput (st (counting m)).caddy (st (counting m)).eng k = false) ∧
    (st (counting m)).eng.tempo.ctrs.length = 16 ∧
    ∀ x ∈ (st (counting m)).eng.tempo.ctrs, x.run = true → x.gate = 0 ∧ x.master = none ∧ x.cmp = 0 ∧ 1 < x.cnt ∧ x.cnt < 0x1000000 := by
  refine ⟨inService_st _ rfl rfl rfl, h, ?_⟩
  cases m <;> first | exact absurd rfl h | decide +kernel

theorem wit_counterTick_modes : Mode.play ≠ .load ∧ Mode.bench ≠ .load ∧ (counting .play).ctr 10 ≠ (counting .play).ctr 11 := by decide +kernel

/-! Faults and the transmitter. -/

/-- Full service with `n` faults pending. -/
def faulty (n : Nat) (e : Engine) : Engine := { e with faults := { e.faults with pend := (List.range n).map fun i => ⟨i + 1, 2, (7, 0)⟩ } }

theorem wit_raising : (faulty 3 svc).faults.pend = [⟨1, 2, (7, 0)⟩] ++ ⟨2, 2, (7, 0)⟩ :: [⟨3, 2, (7, 0)⟩] ∧
    (∀ x ∈ [(⟨1, 2, (7, 0)⟩ : FaultRec), ⟨3, 2, (7, 0)⟩], x.code ≠ 2) ∧
    (∀ x ∈ (faulty 3 svc).faults.pend, x.code ≠ 9 ∧ x.made ≠ (faulty 3 svc).moment) ∧ svc.served = true ∧ early.served = false ∧
    faultRetained 0x1F = true ∧ faultRetained 0x1E = false := by decide +kernel

/-- R866: of three raises of one instant the records stand in ascending code. -/
theorem test_raise_order : (((svc.raise 0x20).raise 0x1F).raise 0x21).faults.pend.map (·.code) = [0x1F, 0x20, 0x21] ∧
    (((svc.raise 0x20).raise 0x1F).raise 0x1F).faults.last = some (0x20, (0, 0)) := by decide +kernel

/-- A strobe at which a retained fault waits for T05. -/
def dirty : State := st { svc with now := 8096000, faults := { svc.faults with last := some (0x1F, (8096000, 0)), dirty := true } }

theorem wit_strobeTail : dirty.running = true ∧ dirty.eng.strobe.started = true ∧ dirty.eng.now = dirty.eng.strobe.last ∧
    dirty.eng.faults.last = some (0x1F, (8096000, 0)) ∧ dirty.eng.steep.b4 = true ∧ dirty.eng.mode ≠ .load ∧
    nth 0#16 dirty.strobeTail.thermos.words 5 = 0x1F#16 ∧ (st svc).eng.now ≠ (st svc).eng.strobe.last := by decide +kernel

theorem txIdle_st (e : Engine) (hq : e.evq = []) (h : e.strobe.started = true) (u : e.link.txUntil ≤ e.strobe.last) (t : e.link.tr = some (12582912 / 1000)) :
    TxIdle (12582912 / 1000) (st e) := ⟨rfl, hq, h, u, t⟩

theorem wit_regularFrame : TxIdle (12582912 / 1000) (st { svc with link := { port with regularDue := true } }) ∧
    TxIdle (12582912 / 1000) (st { svc with mode := .bench }) := ⟨txIdle_st _ rfl rfl (by decide +kernel) rfl, txIdle_st _ rfl rfl (by decide +kernel) rfl⟩

theorem wit_faultFrame : TxIdle (12582912 / 1000) (st (faulty 20 svc)) ∧ (faulty 20 svc).mode = .play ∧ (faulty 20 svc).link.regularDue = false ∧
    (faulty 20 svc).faults.pend ≠ [] := ⟨txIdle_st _ rfl rfl (by decide +kernel) rfl, by decide +kernel⟩

theorem wit_statusLoadFrame : TxIdle (12582912 / 1000) (st (faulty 2 ldm)) ∧ (faulty 2 ldm).mode = .load ∧ (faulty 2 ldm).load.ackDue = none ∧
    (faulty 2 ldm).pins.ready = true ∧ (faulty 2 ldm).faults.pend ≠ [] := ⟨txIdle_st _ rfl rfl (by decide +kernel) rfl, by decide +kernel⟩

theorem wit_acknowledgement : TxIdle (12582912 / 1000) (st { ldm with load := { ldm.load with ackDue := some [1#8] } }) :=
  txIdle_st _ rfl rfl (by decide +kernel) rfl

theorem wit_acknowledgement_from : ldm.load.ackFrom ≤ ldm.strobe.last ∧ ldm.strobe.last < { ldm.load with ackFrom := 9000000 }.ackFrom := by
  decide +kernel

theorem wit_framesStart_not : (st svc).calm ∧ svc.strobe.last < { port with txUntil := 9000000 }.txUntil ∧ { port with tr := none }.tr = none ∧
    early.strobe.started = false := ⟨rfl, by decide +kernel⟩

/-- R299, R865: before F a fault joins those kept in first-raise order. -/
theorem wit_raising_early : early.served = false ∧ (∀ x ∈ early.faults.early, x.1 ≠ 0x30 ∧ (x.2 = early.moment → x.1 < 0x30)) ∧
    (∃ x ∈ (early.raise 0x30).faults.early, x.1 = 0x30) ∧ (svc.raise 0x20).faults.last = some (0x20, (svc.raise 0x20).moment) ∧
    (∀ c, Ev.fault c ∈ svc.evq → c ≤ 0x30) :=
  ⟨by decide +kernel, by decide +kernel, by decide +kernel, by decide +kernel, fun c h => nomatch h⟩

/-- Full service in a frame whose count of voices stands. -/
def counted : Engine := { svc with fifo := { svc.fifo with counts := [(1000, 17)] } }

theorem wit_records : svc.modePins < 8 ∧ svc.straps.a < 16 ∧ svc.straps.b < 16 ∧ svc.straps.c < 16 ∧ svc.straps.d < 16 ∧ counted.steep.p = some 10 ∧
    10 ≤ counted.strobe.n ∧ counted.fifo.counts.find? (fun x => x.1 == counted.strobe.n) = some (counted.strobe.n, 17) ∧ svc.dials.chans.length = 16 ∧
    svc.link.peak.length = 4 ∧ svc.out.chans.length = 4 ∧ f32Rat (fAbs (nth 0#32 [0#32, 0xBF800000#32] 0)) ≤ 0 ∧
    1 ≤ f32Rat (fAbs (nth 0#32 [0#32, 0xBF800000#32] 1)) := by decide +kernel

/-- R294, R295: a frame with the records of full service leaves the check word at 0. -/
theorem test_statusFrame : crc8 ((statusFrame 3#8 (recFrame svc ++ recState svc)).drop 1) = 0#8 ∧
    ((statusFrame 3#8 (recFrame svc ++ recState svc)).take 3) = [0xA5#8, 12#8, 3#8] := by decide +kernel

/-! The program input. -/

/-- `n` edges of BCK_IN in frames of 32 periods (I2S), one period `p` tQ. -/
def edgesOf (n p : Nat) : List BckEdge := (List.range n).map fun i => ⟨8000000 + i * p, (i / 16) % 2 == 1, i % 3 == 0, i % 5 == 0⟩

/-- Full service with STRAP_C at I2S and XFOL. -/
def i2s (f : Input) : State := st { svc with straps := ⟨0, 0, 15, 0⟩, input := f }

theorem wit_inputLock : (i2s Input.zero).quiet ∧ (i2s Input.zero).clocked ∧ (i2s Input.zero).eng.steep.b1 = true ∧
    (i2s Input.zero).eng.mode ≠ .load ∧ (i2s Input.zero).eng.input.locked = false ∧ (∀ x ∈ edgesOf 257 256, (i2s Input.zero).eng.input.runFrom ≤ x.t) ∧
    policy (i2s Input.zero).eng ≠ .wclk := ⟨quiet_st _ rfl rfl, ⟨rfl, rfl, rfl⟩, by decide +kernel⟩

theorem wit_inputLock_rate : ∃ r, runOf (inFmt 15) (edgesOf 257 256) = some r ∧ rateOk (inFmt 15) r.c r.pm = true :=
  ⟨⟨32, 8192, List.replicate 8 8192, ⟨8065536, false, false, false⟩⟩, by
    refine ⟨?_, by decide +kernel⟩
    have h : (runOf (inFmt 15) (edgesOf 257 256)).isSome = true := by decide +kernel
    obtain ⟨r, hr⟩ := Option.isSome_iff_exists.mp h
    have hc : (runOf (inFmt 15) (edgesOf 257 256)).map (·.c) = some 32 := by decide +kernel
    have hp : (runOf (inFmt 15) (edgesOf 257 256)).map (·.pm) = some 8192 := by decide +kernel
    have hq : (runOf (inFmt 15) (edgesOf 257 256)).map (·.periods) = some (List.replicate 8 8192) := by decide +kernel
    have hl : (runOf (inFmt 15) (edgesOf 257 256)).map (·.last) = some ⟨8065536, false, false, false⟩ := by decide +kernel
    rw [hr] at hc hp hq hl ⊢
    obtain ⟨c, pm, periods, last⟩ := r
    simp_all⟩

theorem wit_inputLock_slow : ∃ r, runOf (inFmt 15) (edgesOf 257 2000) = some r ∧ rateOk (inFmt 15) r.c r.pm = false := by
  have h : (runOf (inFmt 15) (edgesOf 257 2000)).any (fun r => !rateOk (inFmt 15) r.c r.pm) = true := by decide +kernel
  cases hr : runOf (inFmt 15) (edgesOf 257 2000) with
  | none => rw [hr] at h; cases h
  | some r => exact ⟨r, rfl, by rw [hr] at h; simpa using h⟩

/-- A locked input that waits for a frame after `k` errors in a row. -/
def missing (k : Nat) : State := i2s { Input.zero with locked := true, row := 5, c := 32, pm := 8192, pref := 8192, errRun := k }

theorem wit_decisionInstant (k : Nat) : (missing k).quiet ∧ (missing k).clocked ∧ (missing k).eng.input.locked = true ∧
    (missing k).eng.input.start = none := ⟨quiet_st _ rfl rfl, ⟨rfl, rfl, rfl⟩, rfl, rfl⟩

theorem wit_decisionInstant_tracking : (missing 0).eng.kettle.settled = false := rfl

theorem wit_decisionInstant_unlock : (decideFrame (missing 2).caddy (missing 2).eng [] 9000000).unlock = true ∧
    (decideFrame (missing 0).caddy (missing 0).eng [] 9000000).unlock = false := by decide +kernel

/-! The output modulator. -/

/-- Full service with the four channels at `x`. -/
def withLine (x : Chan) : State := st { svm with out := { svm.out with chans := List.replicate 4 x } }

theorem wit_modulates : Modulates 2 line (withLine line) ∧ line.line.parityOk = true ∧ line.riseAt = none :=
  ⟨⟨quiet_st _ rfl rfl, ⟨rfl, rfl, rfl⟩, by decide +kernel⟩, by decide +kernel⟩

/-- A channel whose period before had its transitions in coarse steps 421 and 1640. -/
def measuredLine : Chan := { line with riseAt := some 421, fallAt := some 1640 }

theorem wit_modulates_measured : Modulates 2 measuredLine (withLine measuredLine) := ⟨quiet_st _ rfl rfl, ⟨rfl, rfl, rfl⟩, by decide +kernel⟩

/-- A sample whose rising edge falls between two coarse steps. -/
def fineLine : Chan := { line with x := 0x3DCCCCCD#32 }

theorem wit_badTap : Modulates 2 fineLine (withLine fineLine) ∧
    (((16000 : Rat) - 14000 * f32Rat fineLine.x + 1 / 2).floor : Int) = 14600 ∧ (14600 : Int) % 32 = 8 ∧
    tapParity (nth 0#7 (fineLine.flip [(0, 8, 6)]).line.regs 8) = false := ⟨⟨quiet_st _ rfl rfl, ⟨rfl, rfl, rfl⟩, by decide +kernel⟩, by decide +kernel⟩

theorem wit_switchingPeriod_not : (withLine { line with periods := 8 }).calm ∧ 8 ≤ ((withLine { line with periods := 8 }).eng.chan 2).periods :=
  ⟨rfl, by decide +kernel⟩

/-- Channel 1 at the strobe of its routine calibration. -/
def routine : State := st { svm with strobe := ⟨true, 24000, 9000000, 4⟩ }

theorem wit_routineCycle : routine.quiet ∧ routine.clocked ∧ routine.eng.strobe.started = true ∧ (routine.eng.chan 1).modulating = true ∧
    routineDue routine.eng.kettle.fam 1 routine.eng.strobe.n = true ∧ (routine.eng.chan 1).cycle = false ∧
    (routine.eng.chan 1).lines.any (·.passed) = true ∧ calibratedChan routine.eng 1 = true ∧ routine.eng.out.chans.length = 4 := ⟨quiet_st _ rfl rfl, ⟨rfl, rfl, rfl⟩, by decide +kernel⟩

theorem wit_lineCalibrationComplete (both : Bool) : (withLine { line with cycle := true, both := both }).quiet ∧
    (withLine { line with cycle := true, both := both }).clocked ∧
    ((withLine { line with cycle := true, both := both }).eng.chan 2).cycle = true ∧
    ((withLine { line with cycle := true, both := both }).eng.chan 2).both = both := ⟨quiet_st _ rfl rfl, ⟨rfl, rfl, rfl⟩, rfl, rfl⟩

/-- A channel on the carrier, whose last period ended at 8000000. -/
def onCarrier : State :=
  st { svm with
    kettle := { locked with locked := false, loopAt := some 200, carrier := true, origin := 8000000, clamp := true, relock := .retune }
    strobe := ⟨true, 1000, 8000000, 1⟩, out := { svm.out with held := true, chans := List.replicate 4 { line with endAt := 8000000 } } }

theorem wit_carrierPeriods : onCarrier.quiet ∧ onCarrier.clocked ∧ onCarrier.eng.strobe.started = true ∧ onCarrier.eng.kettle.locked = false ∧
    onCarrier.eng.kettle.carrier = true ∧ onCarrier.eng.kettle.clamp = true ∧ onCarrier.eng.out.held = true ∧ (onCarrier.eng.chan 2).modulating = true ∧
    (nextStrobe onCarrier.eng).any (fun t => decide ((onCarrier.eng.chan 2).endAt < t)) = true ∧ (onCarrier.eng.chan 2).atLimit < 960 :=
  ⟨quiet_st _ rfl rfl, ⟨rfl, rfl, rfl⟩, by decide +kernel⟩

/-- A silent channel with a trim request. -/
def asks : State := withLine { line with request := true, silRun := 1000000 }

theorem wit_trimStart : asks.quiet ∧ asks.clocked ∧ trimDue asks.eng (asks.eng.chan 2) = true :=
  ⟨quiet_st _ rfl rfl, ⟨rfl, rfl, rfl⟩, by decide +kernel⟩

/-- A trim that began at strobe 712. -/
def trimming : State := withLine { line with request := true, trim := some 712 }

theorem wit_trimEnd : trimming.quiet ∧ trimming.clocked ∧ (trimming.eng.chan 2).trim = some 712 ∧ (trimming.eng.chan 2).trimOver = false ∧
    trimming.eng.strobe.n = 712 + framesMs trimming.eng.kettle.fam 2 + framesMs trimming.eng.kettle.fam 1 :=
  ⟨quiet_st _ rfl rfl, ⟨rfl, rfl, rfl⟩, by decide +kernel⟩

/-- An hour after a trim. -/
def hour : State :=
  st { svm with strobe := ⟨true, 345600005, 0, 4⟩, out := { svm.out with chans := List.replicate 4 { line with trimDone := some 5, trimSpan := 345600000 } } }

theorem wit_trimRequestTimeout : hour.quiet ∧ hour.clocked ∧ (hour.eng.chan 2).modulating = true ∧ hour.eng.mode = .play ∧
    (hour.eng.chan 2).trimDone = some 5 ∧ (hour.eng.chan 2).trimSpan ≤ hour.eng.strobe.n - 5 ∧
    framesOf hour.eng.kettle.fam 3600 = 345600000 :=
  ⟨quiet_st _ rfl rfl, ⟨rfl, rfl, rfl⟩, by decide +kernel⟩

/-! Remote control and switches. -/

/-- The levels of the code frame with the 32 bits of `b` (Table 16-1). -/
def codeRuns (b : Nat) : List IrRun :=
  [⟨true, 147456⟩, ⟨false, 73728⟩] ++
    (List.range 32).flatMap (fun i => [⟨true, 12902⟩, ⟨false, if b / 2 ^ (31 - i) % 2 = 1 then 37478 else 12902⟩]) ++ [⟨true, 12902⟩]

/-- The levels of a repeat frame. -/
def repeatRuns : List IrRun := [⟨true, 147456⟩, ⟨false, 36864⟩, ⟨true, 12902⟩]

/-- R690: address 0x1234, command 0x56, and the check byte 0xFF xor (0x12 + 0x34 + 0x56). -/
theorem test_pulseDistance : pdCode (codeRuns 0x12345663) = some ⟨1, 0x1234, 0x56, false⟩ ∧ pdCode (codeRuns 0x12345664) = none := by decide +kernel

/-- The levels of the bi-phase frame with the bits `bs`, merged by hand: S = 1 and 15 bits of 1 (R692). -/
def biphaseOnes : List IrRun := ⟨false, 80000⟩ :: (List.range 31).map fun i => ⟨i % 2 == 0, 14746⟩

/-- R693, R694: sixteen bits of 1. -/
theorem test_biPhase : biCode biphaseOnes = some ⟨2, 0x3F, 0xFF, true⟩ := by decide +kernel

/-- Full service with a chain of `k` whose last frame was complete at 200 tQ. -/
def chained (k : IrCode) : State := st { svc with ir := ⟨some ⟨k, 100, 200, 100, false, false⟩, false, 0⟩ }

theorem wit_codeFrame : (st svc).quiet ∧ irFresh (codeRuns 0x12345663) ((40000000 : Nat) : Rat) (st svc).eng = true ∧ pdCode (codeRuns 0x12345663) = some ⟨1, 0x1234, 0x56, false⟩ ∧
    pdCode [] = none := ⟨quiet_st _ rfl rfl, by decide +kernel⟩

theorem wit_repeatFrame : (chained ⟨1, 0x1234, 0x56, false⟩).quiet ∧ irFresh repeatRuns ((4000000 : Nat) : Rat) (chained ⟨1, 0x1234, 0x56, false⟩).eng = true ∧
    pdRepeat repeatRuns = true ∧ ((4000000 : Nat) : Rat) ≤ 200 + msT 150 := ⟨quiet_st _ rfl rfl, by decide +kernel⟩

theorem wit_biPhase_new : (st svc).quiet ∧ irFresh biphaseOnes (((10000000 : Nat) : Rat) - msT 2) (st svc).eng = true ∧ biCode biphaseOnes = some ⟨2, 0x3F, 0xFF, true⟩ ∧
    ∀ ch, (st svc).eng.ir.chain = some ch → ch.code ≠ ⟨2, 0x3F, 0xFF, true⟩ ∨ ch.last + msT 150 < ((9 : Nat) : Rat) :=
  ⟨quiet_st _ rfl rfl, by decide +kernel, by decide +kernel, fun ch h => by cases h⟩

theorem wit_biPhase_same : (chained ⟨2, 0x3F, 0xFF, true⟩).quiet ∧
    irFresh biphaseOnes (((10000000 : Nat) : Rat) - msT 2) (chained ⟨2, 0x3F, 0xFF, true⟩).eng = true ∧
    biCode biphaseOnes = some ⟨2, 0x3F, 0xFF, true⟩ ∧
    (chained ⟨2, 0x3F, 0xFF, true⟩).eng.ir.chain = some ⟨⟨2, 0x3F, 0xFF, true⟩, 100, 200, 100, false, false⟩ ∧
    ((10000000 : Nat) : Rat) ≤ 200 + msT 150 := ⟨quiet_st _ rfl rfl, by decide +kernel⟩

/-- R698: 20 ms of idle, then 120 ms in which the level changes every 5 ms. -/
def floodRuns : List IrRun := ⟨false, 491520⟩ :: (List.range 24).map fun i => ⟨i % 2 == 0, 122880⟩

theorem wit_flood : (st svc).quiet ∧ irRuns (st svc).eng = true ∧ floodDue floodRuns 60000000 (st svc).eng = true ∧
    floodDue (floodRuns.take 20) 60000000 (st svc).eng = false ∧ (st { svc with ir := ⟨none, true, 0⟩ }).running = true ∧
    irIdle ⟨false, 491520⟩ = true ∧ irIdle ⟨false, 491519⟩ = false := ⟨quiet_st _ rfl rfl, by decide +kernel⟩

theorem wit_chainTimeout : (chained ⟨2, 0x3F, 0xFF, true⟩).quiet ∧ 200 + msT 150 ≤ ((58982600 : Nat) : Rat) :=
  ⟨quiet_st _ rfl rfl, by decide +kernel⟩

/-- A system section whose GP entry 3 has KIND `k` and CONFIG `c`. -/
def gpMem (k c : Nat) : Memory := [(0x400, 1#8), (0x1060, BitVec.ofNat 8 k), (0x1068, BitVec.ofNat 8 c)]

/-- Full service with GP entry 3 at `g` under that section. -/
def gpState (k c : Nat) (g : GpEntry) : State := { st { svc with gp := svc.gp.set 3 g } with caddy := gpMem k c }

theorem unbound_gp : Unbound (gpMem 1 0x44) atT0.image ∧ Unbound (gpMem 1 0x84) atT0.image ∧ Unbound (gpMem 2 1) atT0.image := by
  unfold Unbound
  decide +kernel

/-- An input entry whose run is complete. -/
def turning : GpEntry := ⟨true, false, false, false, 200, 200, 0, 0, false, 0, false⟩

/-- An active input entry whose REPEAT or LONG is due. -/
def pressed : GpEntry := ⟨true, false, false, true, 0, 200, 1000, 900, false, 0, false⟩

theorem wit_debounceChange : (gpState 1 0x44 turning).quiet ∧ gpDue (gpMem 1 0x44) (gpState 1 0x44 turning).eng 3 = true ∧
    (st svc).calm ∧ gpDue mem svc 3 = false := ⟨⟨rfl, rfl, unbound_gp.1⟩, by decide +kernel, rfl, by decide +kernel⟩

theorem wit_switchRepeat : (gpState 1 0x44 pressed).quiet ∧ gpInput (gpMem 1 0x44) (gpState 1 0x44 pressed).eng 3 = true ∧
    gpRole (gpMem 1 0x44) atT0.image 3 = 0 ∧ gpActive (gpMem 1 0x44) (gpState 1 0x44 pressed).eng 3 = true ∧
    gpClass (gpMem 1 0x44) atT0.image 3 = 1 ∧ gpDue (gpMem 1 0x44) (gpState 1 0x44 pressed).eng 3 = false ∧ 0 < pressed.due ∧
    pressed.due ≤ pressed.hold := ⟨⟨rfl, rfl, unbound_gp.1⟩, by decide +kernel⟩

theorem wit_switchLong : (gpState 1 0x84 pressed).quiet ∧ gpInput (gpMem 1 0x84) (gpState 1 0x84 pressed).eng 3 = true ∧
    gpRole (gpMem 1 0x84) atT0.image 3 = 0 ∧ gpActive (gpMem 1 0x84) (gpState 1 0x84 pressed).eng 3 = true ∧
    gpClass (gpMem 1 0x84) atT0.image 3 = 2 ∧ pressed.longDone = false := ⟨⟨rfl, rfl, unbound_gp.2.1⟩, by decide +kernel⟩

theorem wit_switch_not : (gpState 1 0x44 { pressed with due := 2000 }).calm ∧
    ((gpState 1 0x44 { pressed with due := 2000 }).eng.gpAt 3).hold < ((gpState 1 0x44 { pressed with due := 2000 }).eng.gpAt 3).due :=
  ⟨rfl, by decide +kernel⟩

/-! Health. -/

/-- Full service at strobe 10012 with the roles of a sound machine, changed by `f`. -/
def healthy (f : Health → Health) : Engine :=
  { svc with
    strobe := ⟨true, 10012, 90000000, 4⟩
    health := f { svc.health with
      cells := (List.range 192).map fun i =>
        ⟨if i < 128 then .voice i else if i < 176 then .bus (i - 128) else .spare, true, if i < 176 then 5 else 1, none, false, 0, 0, 0, false⟩
      order := 9 } }

theorem wit_rotation : (st (healthy id)).quiet ∧ rotationNow (healthy id) = some 1 ∧ 1 % 96 ≠ 0 ∧
    voiceCells ((healthy id).health.f + fencesAhead (healthy id).health) ≤ (healthy id).cond.limit / 2 ∧ rotationPick (healthy id) = some 176 ∧
    (healthy id).health.cells.length = 192 ∧ ((healthy id).cellAt 176).role = .spare := ⟨quiet_st _ rfl rfl, by decide +kernel⟩

/-- The cell with a role is the one tested earliest. -/
def roleFirst : Engine := healthy fun h => { h with cells := h.cells.set 40 ⟨.voice 40, true, 0, none, false, 0, 0, 0, false⟩ }

theorem wit_rotation_role : (st roleFirst).quiet ∧ rotationNow roleFirst = some 1 ∧ rotationPick roleFirst = some 40 ∧
    (roleFirst.cellAt 40).role ≠ .spare ∧ bestSpare (rested roleFirst) = some 176 := ⟨quiet_st _ rfl rfl, by decide +kernel⟩

/-- A cell has returned while pair 127 is out of service. -/
def returned : Engine :=
  { healthy fun h => { h with cells := (h.cells.set 127 ⟨.spare, true, 1, none, false, 0, 0, 0, true⟩) } with cond := { svc.cond with limit := 254 } }

theorem wit_rotation_pair : (st returned).quiet ∧ rotationNow returned = some 1 ∧ voiceCells (returned.health.f + fencesAhead returned.health) = returned.cond.limit / 2 + 1 ∧
    bestSpare (rested returned) = some 127 ∧ bestSpare returned = some 176 ∧ returned.health.cells.length = 192 := ⟨quiet_st _ rfl rfl, by decide +kernel⟩

theorem wit_rotation_not : (st early).calm ∧ rotationNow (st early).eng = none := ⟨rfl, by decide +kernel⟩

/-- Cell 180 under test in role `r` after `p` passes. -/
def testing (r : Role) (p : Nat) : Engine := healthy fun h => { h with cells := h.cells.set 180 ⟨r, true, 1, some 3, false, p, 1, 3, false⟩ }

theorem wit_cellTest : (st (testing .spare 0)).quiet ∧ (testing .spare 0).health.cells.length = 192 ∧ ((testing .spare 0).cellAt 180).testing = some 3 ∧
    (testing .spare 0).health.parity.contains 180 = false ∧ ((testing .spare 0).cellAt 180).role ≠ .fenced ∧
    ((testing .fenced 1).cellAt 180).role = .fenced ∧ ((testing .fenced 1).cellAt 180).passes < 2 ∧ ((testing .fenced 2).cellAt 180).passes = 2 :=
  ⟨quiet_st _ rfl rfl, by decide +kernel⟩

/-- A move from cell 3 to cell 176 whose boundary has come; `f` says whether it fences cell 3. -/
def moving (f : Bool) : Engine :=
  { healthy (fun h => { h with moves := [⟨3, some 176, .voice 3, 10010, f, false, false⟩] }) with fifo := { svc.fifo with next := some 10013 } }

theorem wit_roleMove (f : Bool) : (st (moving f)).quiet ∧ (moving f).health.moves = [⟨3, some 176, .voice 3, 10010, f, false, false⟩] ∧
    (moving f).fifo.next = some 10013 ∧ 10010 ≤ 10013 := ⟨quiet_st _ rfl rfl, rfl, rfl, by decide⟩

theorem wit_roleMove_role (f : Bool) : (moving f).health.cells.length = 192 ∧ holdsRole (moving f) 3 = true ∧ (st (moving f)).cells.length = 192 := by
  cases f <;> decide +kernel

theorem wit_roleMove_once : ((List.range 192).map fun j => ((moving true).cellAt j).role).take 176 =
    (List.range 176).map (fun i => if i < 128 then .voice i else .bus (i - 128)) := by decide +kernel

/-- R876: reads that are sound, and one that is not. -/
def goodReads : List TestRead := [.word 0 7 0 0x55555555#32 true, .word 1 9 2 9#32 true]

theorem wit_cellTest_reads : (∀ r ∈ goodReads, TestRead.ok r = true) ∧ ∃ r ∈ goodReads ++ [.word 2 3 1 0xAAAAAAAA#32 false], TestRead.ok r = false :=
  ⟨by decide +kernel, .word 2 3 1 0xAAAAAAAA#32 false, by simp [goodReads], rfl⟩

/-- The role of cell 3, which stalled, waits for its boundary. -/
def afterStall : Engine :=
  { healthy (fun h => { h with
      cells := h.cells.set 3 ⟨.fenced, true, 5, none, false, 0, 1, 0, false⟩, moves := [⟨3, some 176, .voice 3, 10010, false, true, true⟩] }) with
    fifo := { svc.fifo with next := some 10013 } }

theorem wit_roleMove_stalled : (st afterStall).quiet ∧ afterStall.health.moves = [⟨3, some 176, .voice 3, 10010, false, true, true⟩] ∧
    (Role.voice 3).works = true ∧ afterStall.fifo.next = some 10013 ∧ (∀ j < 192, (afterStall.cellAt j).role ≠ .voice 3) ∧
    afterStall.health.cells.length = 192 := ⟨quiet_st _ rfl rfl, by decide +kernel⟩

/-- A frame hangs on the cell that moves, and a boundary is still to come. -/
theorem wit_roleMove_not : (st (moving true)).calm ∧ 3 ∈ ({ frame 10011 false with stuck := [3] } : FrameRec).stuck ∧
    ({ moving true with fifo := { svc.fifo with next := some 10009 } } : Engine).fifo.next = some 10009 ∧ 10009 < 10010 ∧
    (healthy id).health.moves = [] := ⟨rfl, by decide +kernel⟩

/-- Cell 3 has not finished frame 10005 at strobe 10013. -/
def late : Engine := { healthy id with fifo := { svc.fifo with frames := [{ frame 10005 false with stuck := [3] }], next := some 10009 } }

theorem wit_stallsAreFound : (st late).inService ∧ late.mode ≠ .load ∧ (nextStrobe late).isSome = true ∧ late.strobe.started = true ∧
    10013 = late.strobe.n + 1 ∧ late.steep.p = some 10 ∧ late.health.cells.length = 192 ∧
    late.fifo.frames = [{ frame 10005 false with stuck := [3] }] ∧ 10005 + 8 ≤ 10013 ∧ holdsRole late 3 = true ∧ late.health.moves = [] ∧
    late.health.parity = [] ∧ late.health.news = [] ∧ late.health.f < 12 ∧ late.cond.limit ≤ 256 ∧ bestSpare late = some 176 :=
  ⟨inService_st _ rfl rfl rfl, by decide +kernel⟩

theorem wit_stallsAreFound_voices : five.occupied = [(5, sounding 60 5)] ∧ (sounding 60 5).group = [5] ∧ 5 / 2 = 2 ∧ afterStall.voices.length = 256 ∧
    2 * 3 < 256 := by decide +kernel

/-! Load service. -/

/-- Load service with the session `s` and the open section `o`. -/
def loading (s : Option Session) (o : Option OpenSection) : State := st { ldm with load := { ldm.load with session := s, sect := o } }

theorem serving_loading (s : Option Session) (o : Option OpenSection) : (loading s o).serving 9 9#8 :=
  ⟨rfl, rfl, rfl, rfl, rfl, rfl, (fun r h => by cases h), rfl, rfl, by show (0 : Rat) ≤ ((9 : Nat) : Rat); decide +kernel, .inl rfl⟩

theorem wit_serving_next : (st { ldm with load := { ldm.load with recorded := some (8#8, 0x10#8, []) } }).serving 9 9#8 :=
  ⟨rfl, rfl, rfl, rfl, rfl, rfl, (fun r h => by cases h), rfl, rfl, by show (0 : Rat) ≤ ((9 : Nat) : Rat); decide +kernel,
    .inr ⟨8#8, 0x10#8, [], rfl, rfl⟩⟩

theorem wit_loadDiscards : (st ldm).running = true ∧ (st ldm).eng.mode = .load ∧ armedAt ((9 : Nat) : Rat) (st ldm).eng = true ∧
    (st ldm).eng.link.rx = [] ∧ armedAt ((9 : Nat) : Rat) early = false ∧
    (st { ldm with load := { ldm.load with ackDue := some [] } }).eng.load.ackDue.isSome = true ∧
    ((9 : Nat) : Rat) < (st { ldm with load := { ldm.load with ackStop := 10 } }).eng.load.ackStop := by decide +kernel

/-- A session; `f` says whether it replaces all. -/
def session (f : Bool) : Session := ⟨f, 7#32, [], 4, none⟩

theorem wit_loadOpen : (loading (some (session false)) none).eng.load.session.isSome = true ∧ (loading none none).eng.load.session = none ∧
    directoryInForce mem = none ∧ (5#8) ≠ 0#8 ∧ (5#8) ≠ 1#8 := by decide +kernel

/-- A caddy whose directory copy A is written with generation 1 and no entry. -/
def formatted : Memory := caddyWrite [] (dirBase 0) (directoryBytes 1 0#32 [])

theorem wit_loadOpen_directory : (directoryInForce formatted).isSome = true := by decide +kernel

/-- A full replacement that has sealed its calibration. -/
def replacing : Session := ⟨true, 7#32, [⟨2, 4, 1, 200, 0#32⟩], 5, some [1#8, 2#8]⟩

theorem wit_loadSection_cal : (session false).full = false ∧ replacing.full = true ∧ (session true).cal = none ∧
    (∀ x ∈ replacing.entries, x.id ≠ 0x0300) ∧ 0 < (4032#32).toNat ∧ (4032#32).toNat ≤ 4032 := by decide +kernel

theorem wit_loadSection : (loading (some (session false)) none).eng.load.sect = none ∧ contentId (0x0002#16).toNat = true ∧
    (0x0002#16) ≠ 0x0300#16 ∧ 0 < (5000#32).toNat ∧ (5000#32).toNat ≤ 4177920 ∧
    (freeRun (entriesInForce mem) (sectorsOf (5000#32).toNat) 1024 4).isSome = true := by decide +kernel

/-- A section of 200 bytes with `g` received. -/
def part200 (g : Nat) (c : W32) : OpenSection := ⟨0, 200, c, 4, g, []⟩

theorem wit_loadData : (part200 128 0#32).id ≠ 0x0300 ∧ (128#32).toNat = (part200 128 0#32).got ∧
    (part200 128 0#32).got + 64 ≤ (part200 128 0#32).length ∧ 64 % 64 = 0 ∧ (part200 128 0#32).got + 72 = (part200 128 0#32).length ∧
    (part200 128 0#32).got % 64 = 0 ∧ Memory.wf mem = true ∧ 4096 * (part200 128 0#32).start + (part200 128 0#32).length + 63 < 4194304 := by
  decide +kernel

/-- A calibration section of `g` bytes, all received, with check word `c`. -/
def calSection (g : Nat) (c : W32) : OpenSection := ⟨0x0300, 2, c, 0, g, List.replicate g 9#8⟩

theorem wit_loadData_cal : (calSection 0 0#32).id = 0x0300 ∧ (0#32).toNat = (calSection 0 0#32).got ∧ (calSection 0 0#32).got + 2 = (calSection 0 0#32).length := by
  decide +kernel

/-- R737, R755: a check word that matches, one that does not, and a caddy whose copies have come to SEQ 500000. -/
theorem wit_calibrationIsSealed : (calSection 2 0#32).got = (calSection 2 0#32).length ∧ crc32c (calSection 2 0#32).held ≠ (calSection 2 0#32).scrc ∧
    crc32c (calSection 2 (crc32c [9#8, 9#8])).held = (calSection 2 (crc32c [9#8, 9#8])).scrc ∧ calSeq mem + 1 ≤ 500000 ∧
    500000 < calSeq (caddyWrite [] 0 (calBytes 500000 [9#8, 9#8])) + 1 ∧ (calSection 2 0#32).held.length ≤ 4032 := by decide +kernel

/-- R752: what a commit needs. -/
theorem wit_sessionsClose : replacing.full = true ∧ generation mem < 250000 ∧ replacing.entries.length ≤ 21 ∧
    (∀ bs, replacing.cal = some bs → bs.length ≤ 4032 ∧ calSeq mem + 1 ≤ 500000) ∧ Memory.wf mem = true := by
  refine ⟨rfl, by decide +kernel, by decide, fun bs h => ?_, by decide +kernel⟩
  cases h
  decide +kernel

/-- A section of 4 bytes, all received, with check word `c`. -/
def whole (c : W32) : OpenSection := ⟨0, 4, c, 4, 4, []⟩

theorem wit_loadSeal : (whole 1#32).got = (whole 1#32).length ∧ (whole 1#32).id ≠ 0x0300 ∧ generation mem < 250000 ∧
    crc32c (caddyRange mem (4096 * (whole 1#32).start) (whole 1#32).length) ≠ (whole 1#32).scrc := by decide +kernel

theorem wit_loadSeal_full : ∃ c, crc32c (caddyRange mem (4096 * (whole c).start) (whole c).length) = (whole c).scrc :=
  ⟨crc32c (caddyRange mem (4096 * 4) 4), rfl⟩

/-- A generation at the end of its range, and a section with bytes still to come. -/
theorem wit_loadSeal_worn : 250000 ≤ generation (caddyWrite [] (dirBase 0) (directoryBytes 250000 0#32 [])) ∧ (part200 128 0#32).got ≠ (part200 128 0#32).length ∧
    (session false).full = false ∧ (session true).full = true ∧ directoryInForce mem = none := by decide +kernel

/-! Binding actions. -/

/-- Full service with volume index 100, the mute `m`. -/
def mixed (m : Bool) : State := st { svc with mix := { MixRec.zero with index := 100, muted := m, profile := 3 } }

theorem wit_volume : (mixed false).inService ∧ (mixed false).eng.mix.muted = false ∧ -255 ≤ (5#32).toInt ∧ (5#32).toInt ≤ 255 ∧
    (105 : Int) = max 0 (min 255 (((mixed false).eng.mix.index : Int) + (5#32).toInt)) ∧ (255#32).toInt = ((255 : Nat) : Int) :=
  ⟨inService_st _ rfl rfl rfl, by decide +kernel⟩

theorem wit_volume_muted : (mixed true).inService ∧ (mixed true).eng.mix.muted = true ∧ (200#32).toInt = ((200 : Nat) : Int) ∧
    255 < (256#32).toInt := ⟨inService_st _ rfl rfl rfl, by decide +kernel⟩

theorem wit_sourceAndProfile : (mixed false).inService ∧ (2#32).toInt = ((2 : Nat) : Int) ∧ 2 ≠ (mixed false).eng.mix.source ∧
    (mixed false).eng.mix.source ≤ 2 ∧ (15#32).toInt = ((15 : Nat) : Int) ∧ 15 ≠ (mixed false).eng.mix.profile ∧
    (5 : Int) = (((mixed false).eng.mix.profile : Int) + (2#32).toInt) % 16 ∧ 2 < (3#32).toInt ∧ 15 < (16#32).toInt :=
  ⟨inService_st _ rfl rfl rfl, by decide +kernel⟩

theorem wit_duckAndWet : (st svc).inService ∧ (2#8).toNat ≤ 2 ∧ 2 < (3#8).toNat := ⟨inService_st _ rfl rfl rfl, by decide⟩

theorem wit_partActions : (st svc).inService ∧ 1 ≤ (1#8).toNat ∧ (1#8).toNat ≤ 16 ∧ partOn mem svc (1#8).toNat = true ∧ svc.parts.length = 16 ∧
    (127#32).toInt = ((127 : Nat) : Int) ∧ (3#8).toNat ≤ 3 ∧ (9 : Int) = (((svc.part 1).patchNo : Int) + (9#32).toInt) % 128 ∧
    (8#8).toNat ≤ 8 ∧ driven mem svc 1 7 = false ∧ (100#8).toNat ≤ 127 := ⟨inService_st _ rfl rfl rfl, by decide +kernel⟩

theorem wit_partActions_lists : svc.cond.noteStacks.length = 16 ∧ svc.tempo.keys.length = 16 ∧ 1 ≤ (1#8).toNat ∧ (1#8).toNat ≤ 8 ∧
    (255#8 = 255#8 ∧ defaultBank svc.straps = defaultBank svc.straps) := by decide +kernel

theorem wit_actionsActAsMessages : (st svc).inService ∧ svc.mode ≠ .load ∧ ((0 : Nat) : Rat) ≤ svc.now ∧ (1#8).toNat = partOf 0 ∧
    (64#8).toNat ≤ 127 ∧ (127#8).toNat ≤ 127 := ⟨inService_st _ rfl rfl rfl, by decide +kernel⟩

theorem wit_partActions_off : (st svc).calm ∧ partOn mem svc (2#8).toNat = false := ⟨rfl, by decide +kernel⟩

theorem wit_counterActions : (st svc).inService ∧ (2#8).toNat ≤ 2 ∧ 8 ≤ (8#8).toNat ∧ (15#8).toNat ≤ 15 ∧ 1 ≤ (4#8).toNat ∧ (4#8).toNat ≤ 4 ∧
    (7#8).toNat < 8 ∧ 15 < (16#8).toNat := ⟨inService_st _ rfl rfl rfl, by decide⟩

theorem wit_pinActions : (gpState 2 1 turning).inService ∧ (3#8).toNat < 16 ∧ ((gpState 2 1 turning).eng.gpAt 3).taken = true ∧
    gpKind (gpMem 2 1) atT0.image 3 = 2 := ⟨⟨⟨rfl, rfl, unbound_gp.2.2⟩, rfl⟩, by decide +kernel⟩

theorem wit_pinActions_not : (st svc).calm ∧ 15 < (16#8).toNat ∧ (svc.gpAt 3).taken = false := ⟨rfl, by decide +kernel⟩

/-! The datapath. -/

/-- Cells that hold 1.5 in the accumulator, a word of the bank and a word of local memory. -/
def cells : State :=
  { st svc with
    cells := List.replicate 192 { Cell.zero with acc := (⟨3, -1⟩ : Dy).norm32, active := [(4, 0x3FC00000#32)], localMem := [(7, 0xC0000000#32)] } }

/-- Operands of every form. -/
def operands : List Opd := [.word one32, .reg 4 false, .mem 7 true, .via 2 (some ⟨0, 1024, 7, -1⟩) true false]

theorem wit_datapath : cells.cells.length = 192 ∧ operands.any (opdBad (prepAll operands (cells.cellAt 3))) = true ∧
    (opdRead (prepAll operands (cells.cellAt 3)) (.reg 4 false)) = 0x3FC00000#32 ∧ (cells.cellAt 3).ok = true := by decide +kernel

/-- R399: a word found with wrong parity reads +0 until it is written. -/
theorem wit_parity : opdBad (cells.cellAt 3) (.mem 7 true) = true ∧
    opdRead (opdMark (.mem 7 true) (cells.cellAt 3)) (.mem 7 false) = 0#32 := by decide +kernel

/-- R383 in a local memory of 1024 words: an address beyond its end counts modulo its size (log 90). -/
theorem test_address : (prepAll [.via 2 (some ⟨1023, 1024, 1023, -1⟩) true false] Cell.zero |> postAll [.via 2 none true false]).wordAt localSize 2 = 1022 := by
  decide +kernel

theorem wit_datapath_quiet : cells.quiet := ⟨rfl, rfl, unbound_mem⟩

theorem wit_cellComputes : CellComputes cells 3 ∧ CellComputes (st (healthy id)) 3 ∧ ¬ CellComputes (st (healthy id)) 180 ∧
    CellComputes (st (testing .spare 0)) 180 ∧ CellComputes (st (testing .fenced 0)) 180 := by
  unfold CellComputes
  decide +kernel

theorem wit_parity_raise : holdsRole (healthy id) 3 = true ∧ holdsRole cells.eng 3 = false ∧ (cells.eng.cellAt 3).testing = none := by decide +kernel

theorem wit_delayRead : (∀ x ∈ cells.dnew, x.1 = 3 → x.2.1 ≠ 12) ∧ onDatapath (.clr 3) = true := by decide +kernel

theorem wit_rounding : 0 < 24 ∧ (⟨3, -1⟩ : Dy).m ≠ 0 ∧ (3 : Int).natAbs < 2 ^ 24 ∧ (16777216 : Int).natAbs ≤ 16777216 ∧
    (f32Val one32).m ≠ 0 ∧ (f32Val 0x80000000#32).m = 0 := by decide +kernel

/-! ## Well-formedness: one ill-formed command for each check -/

/-- An operand and a result whose address register is set outside its memory. -/
def badOpd : Opd := .via 0 (some ⟨1024, 1, 0, 1⟩) true false

/-- The result. -/
def badDst : Dst := .via 0 (some ⟨0, 1025, 0, 1⟩) true

/-- A good operand. -/
def okOpd : Opd := .word 0#32

/-- VREFC at 3.3 V. -/
def refs : StrapRefs := let v : StrapVolts := ⟨3300000, 3300000, 3300000, 3300000, 3300000⟩; ⟨v, v, v, v⟩

/-- Commands with one operand out of its range. -/
def illFormed : List Instr :=
  [.strapBurst ⟨0, 0, 0, 0, 0⟩ ⟨0, 0, 0, 0, 0⟩ ⟨0, 0, 0, 0, 0⟩ ⟨0, 0, 0, 0, 0⟩ { refs with c := ⟨1, 1, 0, 1, 1⟩ }, .delayLineCalibration ⟨⟨[1], [], 0⟩, calOf [] 0, 0⟩ ⟨calOf [] 0, calOf [] 0, 0⟩,
   .delayLineCalibration ⟨calOf [] 0, calOf [] 0, 0⟩ ⟨calOf [] 0, ⟨[1], [], 0⟩, 0⟩, .conversionComplete 0 0, .syncCharacter [9, 8] true,
   .syncCandidateRejected ⟨[9, 8], 9⟩, .framingError 5 4, .character 0 ⟨5, 4⟩, .systemCommon 0 [1, 2] 9, .systemCommon 1 [1, 2, 3] 9, .systemCommon 3 [1] 9,
   .inputLock [⟨5, true, true, true⟩, ⟨4, true, true, true⟩], .decisionInstant [⟨5, true, true, true⟩, ⟨4, true, true, true⟩] 9,
   .decisionInstant [⟨5, true, true, true⟩] 4, .switchingPeriod 0 [5, 4] [] [], .switchingPeriod 0 [] [64000] [],
   .lineCalibrationComplete 0 [1] ⟨[], 0⟩, .pulseDistanceCodeFrame [] 9, .pulseDistanceRepeatFrame [] 9, .biPhaseFrame [] 9, .flood ⟨[], 9⟩,
   .cellTestComplete 0 [.word 1 64 0 0#32 true], .cellTestComplete 0 [.word 2 64 0 0#32 true], .loadData ⟨1#8, 9⟩ 0#32 (List.replicate 1025 0#8) none] ++
  [.lda 0 badOpd, .lda 0 (.via 0 (some ⟨0, 1, 1024, 1⟩) true false), .lda 0 (.via 0 (some ⟨0, 0, 0, 1⟩) true false), .mul 0 okOpd badOpd, .mac 0 badOpd okOpd,
   .msu 0 okOpd badOpd, .add 0 badOpd, .stf 0 badDst, .stx 0 (some (.via 0 (some ⟨0, 262145, 0, 1⟩) true)), .neg 0 badOpd .out, .abs 0 okOpd badDst,
   .min 0 okOpd badOpd .out, .max 0 badOpd okOpd .out, .sel 0 okOpd okOpd badOpd .out, .norm 0 okOpd badDst, .exp 0 badOpd .out,
   .scale 0 okOpd badOpd .out, .itf 0 okOpd badDst, .ftp 0 badOpd .out, .padd 0 okOpd badOpd .out, .phs 0 badOpd 3 .out,
   .ldx 0 (.fixed 0) none badDst, .ldx 0 (.via 0 true) (some ⟨262144, 1, 0, 1⟩) .out, .ld16 0 0 badDst, .ldu 0 0 badDst]

theorem test_wf_refuses : illFormed.all (fun i => !i.wf) = true := by decide +kernel

/-- The same commands inside the ranges, at their ends. -/
theorem test_wf_accepts : [Instr.strapBurst ⟨0, 0, 0, 0, 0⟩ ⟨0, 0, 0, 0, 0⟩ ⟨0, 0, 0, 0, 0⟩ ⟨0, 0, 0, 0, 0⟩ refs, .cellTestComplete 0 [.word 0 1023 0 0#32 true, .word 1 63 0 0#32 true],
    Instr.framingError 5 5, .character 0 ⟨5, 5⟩, .systemCommon 1 [1, 2] 9, .conversionComplete 0 1,
    .decisionInstant [⟨5, true, true, true⟩] 5, .loadData ⟨1#8, 9⟩ 0#32 (List.replicate 1024 0#8) none, .switchingPeriod 0 [4, 5] [63999] [],
    .lda 0 (.via 7 (some ⟨1023, 1024, 1023, -1⟩) true false), .stx 0 (some (.via 0 (some ⟨262143, 262144, 262143, 1⟩) true))].all Instr.wf = true := by
  decide +kernel

/-- R46: of two events of one instant the port's stands first. -/
theorem test_queue : queueWf [.noteOn 0 60 70 9, .chainTimeout 9, .noteOn 0 61 70 10] = true ∧ queueWf [.chainTimeout 9, .noteOn 0 60 70 9] = false ∧
    queueWf [.noteOn 0 60 70 10, .noteOff 0 60 70 9] = false := by decide +kernel

/-! ## Worked cases of the spec -/

/-- §9.13: the sum in ascending slot order, and in the order of arrival. -/
theorem test_sum_order : macSum [(0x3F800000#32, one32), (0x2F800000#32, one32), (0xBF800000#32, one32)] = 0x30000000#32 := by decide +kernel

/-- R367: the extremes and the two zeros of the µ-law. -/
theorem test_muLaw : muLaw 0x00#8 = -32124 ∧ muLaw 0x80#8 = 32124 ∧ muLaw 0xFF#8 = 0 ∧ muLaw 0x7F#8 = 0 ∧ ldu 0x7F#8 = 0#32 := by decide

/-- R366, R376: -1.0 is read exactly and never stored. -/
theorem test_stx_limits : ldx 0x800000#24 = 0xBF800000#32 ∧ accStx (accLda (ldx 0x800000#24)) = 0x800001#24 := by decide +kernel

/-- §6.10: five codes with median 2786 give level 10, and U(2000) between 0x020 and 0xFDF is 31995. -/
theorem test_strap_and_dial : strapLevel 2786 = 10 ∧ dialU [(0x104, 0x20#8), (0x108, 0xDF#8), (0x109, 0x0F#8)] atT0.image 0 2000 = 31995 := by decide +kernel

/-- §7.12: the fifth falling edge at 3184 tQ gives a bit time of 398 tQ. -/
theorem test_sync : syncOk ((List.range 10).map fun i => 398 * i) true = true ∧
    (match execSyncCharacter ((List.range 10).map fun i => 398 * i) true syncing with
      | .next t => decide (t.eng.link.tr = some 398 ∧ t.eng.link.sync = false ∧ t.eng.link.ref = some 3781)
      | _ => false) = true := by decide +kernel

/-- The channel of the worked case of §15.11: a sample of 0.25, the correction at 688.125, the period before measured at 1219 coarse steps with
the width that the case names. -/
def worked : Chan :=
  { line with x := 0x3E800000#32, iA := 45096960, iB := 45096960, w := 65536 * 39688, riseAt := some 421, fallAt := some 1640 }

/-- R647, R648, R660: r = 12500, Wq = 39688, e = 0.125, and the correction that follows the measured pulse. -/
theorem test_period : ((worked.period false false [] []).1).r = 12500 ∧ ((worked.period false false [] []).1).w = 65536 * 39688 ∧
    ((worked.period false false [] []).1).e1 = 8192 ∧ ((worked.period false false [] []).1).iB = 45063680 := by
  decide +kernel

/-- §16.11: address 0x5A2C, command 0x18, check byte 0x61. -/
theorem test_code : pdCode (codeRuns 0x5A2C1861) = some ⟨1, 0x5A2C, 0x18, false⟩ := by decide +kernel

/-- The table gives no row any bits, so no word spells a command. -/
theorem test_decode : decodeTableWord 16 0x1234 = none ∧ (st svc).withFetchWord 16 0x1234 = st svc := by decide +kernel

end Sys2Proof.Tests
end

section
/-! The releases of the resets and the engine at t0 (R8, R121, R201): which state `State.release` leaves, field by field. -/

namespace Sys2Proof.Machine

/-! ## Raising a fault where none is pending -/

/-- Where nothing is pending, a conditional raise leaves the one record of its code or none. -/
theorem Engine.raiseIf_pend_nil {e : Engine} (h : e.faults.pend = []) (b : Bool) (code : Nat) :
    (e.raiseIf b code).faults.pend = if b then [⟨code, 1, e.moment⟩] else [] := by
  cases b with
  | false => exact h
  | true => simp [Engine.raiseIf, Engine.raise, h, addPend, insertAt]

/-! ## MODE[2:0] (Table 6-1, R213) -/

/-- Table 6-1 over the three pins: every value besides 0 and 2 selects Bench mode. -/
theorem modeOf_toNat (m : BitVec 3) :
    modeOf m.toNat = if m = 0 then Mode.play else if m = 2 then Mode.load else Mode.bench := by
  simp [modeOf, BitVec.toNat_eq]

/-- R213 over the three pins: the reserved values are all but 0, 2 and 5. -/
theorem modeReserved_toNat : ∀ m : BitVec 3,
    modeReserved m.toNat = decide (m = 1 ∨ m = 3 ∨ m = 4 ∨ m = 6 ∨ m = 7) := by decide

/-! ## The engine at t0 -/

/-- What t0 fixes apart from the pending fault; whether MODE_RESERVED is raised makes no difference to it (R8, R66, R786, log 26). -/
theorem Engine.atT0_fields (c : Memory) (m : Nat) (e : Engine) :
    (e.atT0 c m).now = 0 ∧ (e.atT0 c m).mode = modeOf m ∧ (e.atT0 c m).modePins = m ∧
      (e.atT0 c m).image.calCopy = calCopyOf c ∧ (e.atT0 c m).image.cal = calOf c ∧
      (e.atT0 c m).kettle = { Kettle.zero with crystal := e.kettle.crystal } ∧ (e.atT0 c m).steep = Steep.zero ∧
      (e.atT0 c m).strobe = ⟨false, 0, 0, 0⟩ ∧ (e.atT0 c m).cond.limit = 256 ∧ (e.atT0 c m).pins.ready = false := by
  unfold Engine.atT0
  cases modeReserved m <;> exact ⟨rfl, rfl, rfl, rfl, rfl, rfl, rfl, rfl, rfl, rfl⟩

/-- At t0 at most MODE_RESERVED is pending (R213). -/
theorem Engine.atT0_pend (c : Memory) (m : Nat) (e : Engine) :
    (e.atT0 c m).faults.pend = if modeReserved m then [⟨0x05, 1, (0, 0)⟩] else [] :=
  Engine.raiseIf_pend_nil rfl (modeReserved m) 0x05

/-! ## The release of a reset -/

/-- A release that leaves another reset asserted only ends its own (R121). -/
theorem State.release_of_held (m : Nat) (s : State) {p : Power} (h : p.resetN = false ∨ p.por = true ∨ p.internal = true) :
    s.release m p = { s with power := p } := by
  have hrun : ({ s with power := p } : State).running = false := by
    rcases h with h | h | h <;> simp [State.running, h]
  simp [State.release, hrun]

/-- The release that leaves no reset asserted gives t0 (R8). -/
theorem State.release_startsAt (m : BitVec 3) {s : State} {p : Power} (hr : p.resetN = true) (hp : p.por = false)
    (hi : p.internal = false) (hv : p.vbak = s.power.vbak) : StartsAt m s (s.release m.toNat p) := by
  have hrun : ({ s with power := p } : State).running = true := by simp [State.running, hr, hp, hi]
  have ht : s.release m.toNat p =
      { ({ s with power := p } : State).clear with eng := s.eng.atT0 s.caddy m.toNat } := by
    simp only [State.release, hrun, if_true]
  obtain ⟨hnow, hmode, hpins, hcopy, hcal, hkettle, hsteep, hstrobe, hlimit, hready⟩ := s.eng.atT0_fields s.caddy m.toNat
  have hpend := s.eng.atT0_pend s.caddy m.toNat
  rw [modeOf_toNat] at hmode
  simp only [modeReserved_toNat, decide_eq_true_eq] at hpend
  rw [ht]
  exact ⟨hrun, rfl, rfl, rfl, rfl, rfl, hv, hpins, hmode, hpend, hcopy, hcal, hnow, hkettle, hsteep, hstrobe, hlimit, hready⟩

/-! ## The rows of the three releases, each with its reset asserted -/

theorem exec_resetNRise_held (m : BitVec 3) {s : State} (h : s.power.resetN = false) :
    exec (.resetNRise m) s = .next (s.release m.toNat { s.power with resetN := true }) := by
  simp [exec_resetNRise, execResetNRise, resetRiseOp, h]

theorem exec_powerOnResetRelease_held (m : BitVec 3) {s : State} (h : s.power.por = true) :
    exec (.powerOnResetRelease m) s = .next (s.release m.toNat { s.power with por := false, low := [] }) := by
  simp [exec_powerOnResetRelease, execPowerOnResetRelease, porReleaseOp, h]

theorem exec_internalResetRelease_held (m : BitVec 3) {s : State} (h : s.power.internal = true) :
    exec (.internalResetRelease m) s = .next (s.release m.toNat { s.power with internal := false }) := by
  simp [exec_internalResetRelease, execInternalResetRelease, internalReleaseOp, h]

/-- Settles O8: each row is a `State.release` of its own reset, which gives t0 or only ends that reset by the two that are left. -/
theorem lastReleaseStarts : Obligations.LastReleaseStarts := by
  refine ⟨fun m s hr => ⟨_, exec_resetNRise_held m hr, fun hp hi => ?_, fun h => ?_⟩,
    fun m s hp => ⟨_, exec_powerOnResetRelease_held m hp, fun hr hi => ?_, fun h => ?_⟩,
    fun m s hi => ⟨_, exec_internalResetRelease_held m hi, fun hr hp => ?_, fun h => ?_⟩⟩
  · exact State.release_startsAt m rfl hp hi rfl
  · exact State.release_of_held _ s (.inr h)
  · exact State.release_startsAt m hr rfl hi rfl
  · exact State.release_of_held _ s (h.imp_right .inr)
  · exact State.release_startsAt m hr hp rfl rfl
  · exact State.release_of_held _ s (h.imp_right .inl)

end Sys2Proof.Machine
end

section
/-! Which commands write the caddy, the thermos, the cells and the queue (R106, R107, R152, R394, R408, R725, R741): what each kind of
command leaves as it was. -/

namespace Sys2Proof.Machine

/-! ## The kinds of command that `Laws/Datapath.lean` leaves over -/

/-- A row of the load service, or the idle line, which ends a load frame received by characters (R741). -/
def onLoadService : Instr → Bool
  | .loadInfo .. | .loadOpen .. | .loadSection .. | .loadData .. | .loadSeal .. | .loadClose .. | .loadAbort .. | .idleLine _ => true
  | _ => false

/-- A command that works on the machine beyond its engine, each in its own way. -/
def onMachine : Instr → Bool
  | .thermosStep | .frameStrobe | .frameComputationStart _ | .roleMove _ | .cellTestComplete _ _ => true
  | _ => false

/-- A command that may write the registers of the cells or the stores of the frame. -/
def writesCells : Instr → Bool
  | .frameComputationStart _ | .roleMove _ | .cellTestComplete _ _ => true
  | i => onDatapath i || onReset i

/-- Every command belongs to one of the kinds below. -/
theorem kind_cases (i : Instr) : onEngineOnly i = true ∨ endsStrobe i = true ∨ onDatapath i = true ∨ onReset i = true ∨
    onSupply i = true ∨ onLoadService i = true ∨ onMachine i = true := by
  cases i <;> simp [onEngineOnly, endsStrobe, onDatapath, onReset, onSupply, onLoadService, onMachine, writesThermos]

theorem writesThermos_of_endsStrobe {i : Instr} (h : endsStrobe i = true) : writesThermos i = true := by
  revert h
  cases i <;> simp [endsStrobe, writesThermos]

theorem writesCells_of_onDatapath {i : Instr} (h : onDatapath i = true) : writesCells i = true := by
  unfold writesCells
  split <;> simp [h]

theorem writesCells_of_onReset {i : Instr} (h : onReset i = true) : writesCells i = true := by
  unfold writesCells
  split <;> simp [h]

/-! ## What a command may write -/

/-- From `s` to `t` the queue stays, and each memory stays that `i` may not write. -/
structure WritesOnlyItsOwn (i : Instr) (s t : State) : Prop where
  pending : t.pending = s.pending
  caddy : writesCaddy i = false → t.caddy = s.caddy
  words : writesThermos i = false → t.thermos.words = s.thermos.words ∧ t.thermos.tc = s.thermos.tc
  hold : setsHold i = false → t.thermos.hold = s.thermos.hold
  cells : writesCells i = false → t.cells = s.cells ∧ t.dnew = s.dnew

theorem Thermos.commit_hold (unit : List (Nat × W16)) (t : Thermos) : (t.commit unit).hold = t.hold := by
  unfold Thermos.commit
  dsimp only
  split <;> rfl

/-! ### Commands of the engine alone, at a strobe, and of the datapath -/

theorem writesOnlyItsOwn_engine {i : Instr} {s t : State} (h : onEngineOnly i = true) (e : exec i s = .next t) :
    WritesOnlyItsOwn i s t := by
  obtain ⟨hpending, -, hthermos, hcaddy, hcells, hdnew⟩ := exec_engine_frame h e
  exact ⟨hpending, fun _ => hcaddy, fun _ => by simp [hthermos], fun _ => by rw [hthermos], fun _ => ⟨hcells, hdnew⟩⟩

theorem writesOnlyItsOwn_endsStrobe {i : Instr} {s t : State} (h : endsStrobe i = true) (e : exec i s = .next t) :
    WritesOnlyItsOwn i s t := by
  obtain ⟨hpending, -, hhold, hcaddy, hcells, hdnew⟩ := exec_endsStrobe_frame h e
  refine ⟨hpending, fun _ => hcaddy, fun hno => ?_, fun _ => hhold, fun _ => ⟨hcells, hdnew⟩⟩
  simp [writesThermos_of_endsStrobe h] at hno

theorem writesOnlyItsOwn_datapath {i : Instr} {s t : State} (h : onDatapath i = true) (e : exec i s = .next t) :
    WritesOnlyItsOwn i s t := by
  obtain ⟨c, k, bad, new, hnext⟩ := exec_datapath i s h
  obtain ⟨hpending, -, hthermos, hcaddy, -, -⟩ := State.putCell_frame c k bad s
  rw [hnext] at e
  cases e
  refine ⟨hpending, fun _ => hcaddy, fun _ => by simp [hthermos], fun _ => by simp [hthermos], fun hno => ?_⟩
  simp [writesCells_of_onDatapath h] at hno

/-! ### Resets and supplies -/

theorem State.release_frame (m : Nat) (p : Power) (s : State) :
    (s.release m p).pending = s.pending ∧ (s.release m p).thermos = s.thermos ∧ (s.release m p).caddy = s.caddy := by
  unfold State.release
  dsimp only
  split <;> exact ⟨rfl, rfl, rfl⟩

theorem resetRiseOp_frame (m : Nat) (s : State) :
    (resetRiseOp m s).pending = s.pending ∧ (resetRiseOp m s).thermos = s.thermos ∧ (resetRiseOp m s).caddy = s.caddy := by
  unfold resetRiseOp
  split
  · exact ⟨rfl, rfl, rfl⟩
  · exact State.release_frame m _ s

theorem porReleaseOp_frame (m : Nat) (s : State) :
    (porReleaseOp m s).pending = s.pending ∧ (porReleaseOp m s).thermos = s.thermos ∧ (porReleaseOp m s).caddy = s.caddy := by
  unfold porReleaseOp
  split
  · exact State.release_frame m _ s
  · exact ⟨rfl, rfl, rfl⟩

theorem internalReleaseOp_frame (m : Nat) (s : State) : (internalReleaseOp m s).pending = s.pending ∧
    (internalReleaseOp m s).thermos = s.thermos ∧ (internalReleaseOp m s).caddy = s.caddy := by
  unfold internalReleaseOp
  split
  · exact State.release_frame m _ s
  · exact ⟨rfl, rfl, rfl⟩

theorem detectorOp_frame (r : Rail) (s : State) :
    (detectorOp r s).pending = s.pending ∧ (detectorOp r s).thermos = s.thermos ∧ (detectorOp r s).caddy = s.caddy := by
  unfold detectorOp
  dsimp only
  split <;> exact ⟨rfl, rfl, rfl⟩

/-- The internal reset writes T05 first and leaves the hold latch (R152). -/
theorem internalResetOp_frame (t : Nat) (s : State) : (internalResetOp t s).pending = s.pending ∧
    (internalResetOp t s).thermos.hold = s.thermos.hold ∧ (internalResetOp t s).caddy = s.caddy := by
  unfold internalResetOp
  split
  · split
    · refine ⟨rfl, ?_, rfl⟩
      dsimp only
      split
      · exact Thermos.commit_hold _ _
      · rfl
    · exact ⟨rfl, rfl, rfl⟩
  · exact ⟨rfl, rfl, rfl⟩

/-- A reset row that leaves the thermos as it is. -/
theorem writesOnlyItsOwn_of_thermos {i : Instr} {s t : State} (h : onReset i = true)
    (hf : t.pending = s.pending ∧ t.thermos = s.thermos ∧ t.caddy = s.caddy) : WritesOnlyItsOwn i s t := by
  obtain ⟨hpending, hthermos, hcaddy⟩ := hf
  refine ⟨hpending, fun _ => hcaddy, fun _ => by simp [hthermos], fun _ => by rw [hthermos], fun hno => ?_⟩
  simp [writesCells_of_onReset h] at hno

theorem writesOnlyItsOwn_reset {i : Instr} {s t : State} (h : onReset i = true) (e : exec i s = .next t) :
    WritesOnlyItsOwn i s t := by
  cases i with
  | resetNFall => cases e; exact writesOnlyItsOwn_of_thermos h ⟨rfl, rfl, rfl⟩
  | resetNRise m => cases e; exact writesOnlyItsOwn_of_thermos h (resetRiseOp_frame m.toNat s)
  | powerOnResetRelease m => cases e; exact writesOnlyItsOwn_of_thermos h (porReleaseOp_frame m.toNat s)
  | internalResetRelease m => cases e; exact writesOnlyItsOwn_of_thermos h (internalReleaseOp_frame m.toNat s)
  | detectorTrip r => cases e; exact writesOnlyItsOwn_of_thermos h (detectorOp_frame r s)
  | internalReset n =>
    cases e
    obtain ⟨hpending, hhold, hcaddy⟩ := internalResetOp_frame n s
    exact ⟨hpending, fun _ => hcaddy, nofun, fun _ => hhold, nofun⟩
  | _ => cases h

/-- The crystal rows run the engine, or only map it in reset (R128, Table 2-6). -/
theorem writesOnlyItsOwn_supply {i : Instr} {s t : State} (h : onSupply i = true) (e : exec i s = .next t) :
    WritesOnlyItsOwn i s t := by
  cases i with
  | vbakSwitchover => cases e; exact ⟨rfl, fun _ => rfl, fun _ => ⟨rfl, rfl⟩, fun _ => rfl, fun _ => ⟨rfl, rfl⟩⟩
  | vioSwitchover => cases e; exact ⟨rfl, fun _ => rfl, fun _ => ⟨rfl, rfl⟩, fun _ => rfl, fun _ => ⟨rfl, rfl⟩⟩
  | holdLatchSet => cases e; exact ⟨rfl, fun _ => rfl, fun _ => ⟨rfl, rfl⟩, nofun, fun _ => ⟨rfl, rfl⟩⟩
  | crystalValid n =>
    rw [exec_crystalValid, execCrystalValid] at e
    cases e
    split <;> constructor <;> simp
  | crystalLoss n =>
    rw [exec_crystalLoss, execCrystalLoss] at e
    cases e
    split <;> constructor <;> simp [writesThermos, State.playPinsAt]
  | _ => cases h

/-! ### The load service -/

/-- A load frame leaves the caddy where its operation does (R742, R743). -/
theorem loadFrame_caddy {op : Memory → Engine → LoadOut} (hop : ∀ c e, (op c e).caddy = c) (cmd seq : Byte) (start : Time)
    (c : Memory) (e : Engine) : (loadFrame cmd seq start op c e).1 = c := by
  unfold loadFrame
  split
  · rfl
  · dsimp only
    split
    · exact hop c e
    · split
      · rfl
      · split
        · exact hop c e
        · rfl

theorem loadSectionOp_caddy (id length : Nat) (scrc : W32) (c : Memory) (e : Engine) :
    (loadSectionOp id length scrc c e).caddy = c := by
  unfold loadSectionOp LoadOut.only
  dsimp only
  repeat' split
  all_goals rfl

/-- A load row leaves all but the caddy and the engine, and the caddy where its operation does. -/
theorem writesOnlyItsOwn_loadRow {i : Instr} {cmd : Byte} {h : LoadHead} {n : Nat} {op : Memory → Engine → LoadOut} {s t : State}
    (hop : writesCaddy i = false → ∀ c e, (op c e).caddy = c) (e : loadRow cmd h n op s = .next t) : WritesOnlyItsOwn i s t := by
  unfold loadRow at e
  cases e
  split
  · exact ⟨rfl, fun hno => loadFrame_caddy (hop hno) .., fun _ => ⟨rfl, rfl⟩, fun _ => rfl, fun _ => ⟨rfl, rfl⟩⟩
  · exact ⟨rfl, fun _ => rfl, fun _ => ⟨rfl, rfl⟩, fun _ => rfl, fun _ => ⟨rfl, rfl⟩⟩

theorem idleRow_frame (n : Nat) (s : State) : (idleRow n s).pending = s.pending ∧ (idleRow n s).thermos = s.thermos ∧
    (idleRow n s).cells = s.cells ∧ (idleRow n s).dnew = s.dnew := by
  unfold idleRow
  split <;> exact ⟨rfl, rfl, rfl, rfl⟩

theorem writesOnlyItsOwn_load {i : Instr} {s t : State} (h : onLoadService i = true) (e : exec i s = .next t) :
    WritesOnlyItsOwn i s t := by
  cases i with
  | loadInfo => exact writesOnlyItsOwn_loadRow (fun _ _ _ => rfl) e
  | loadSection => exact writesOnlyItsOwn_loadRow (fun _ => loadSectionOp_caddy _ _ _) e
  | loadAbort => exact writesOnlyItsOwn_loadRow (fun _ _ _ => rfl) e
  | loadOpen => exact writesOnlyItsOwn_loadRow nofun e
  | loadData => exact writesOnlyItsOwn_loadRow nofun e
  | loadSeal => exact writesOnlyItsOwn_loadRow nofun e
  | loadClose => exact writesOnlyItsOwn_loadRow nofun e
  | idleLine n =>
    cases e
    obtain ⟨hpending, hthermos, hcells, hdnew⟩ := idleRow_frame n s
    exact ⟨hpending, nofun, fun _ => by simp [hthermos], fun _ => by rw [hthermos], fun _ => ⟨hcells, hdnew⟩⟩
  | _ => cases h

/-! ### The thermos step, the strobe, the start of a frame, the role move and the cell test -/

theorem thermosStepOp_frame (s : State) : (thermosStepOp s).pending = s.pending ∧ (thermosStepOp s).caddy = s.caddy ∧
    (thermosStepOp s).cells = s.cells ∧ (thermosStepOp s).dnew = s.dnew := by
  unfold thermosStepOp
  dsimp only
  split <;> exact ⟨rfl, rfl, rfl, rfl⟩

theorem frameStrobeOp_frame (s : State) : (frameStrobeOp s).pending = s.pending ∧ (frameStrobeOp s).caddy = s.caddy ∧
    (frameStrobeOp s).thermos.hold = s.thermos.hold ∧ (frameStrobeOp s).cells = s.cells ∧ (frameStrobeOp s).dnew = s.dnew := by
  unfold frameStrobeOp
  split
  · dsimp only
    split
    · exact ⟨rfl, rfl, rfl, rfl, rfl⟩
    · exact ⟨rfl, rfl, Thermos.commit_hold _ _, rfl, rfl⟩
  · exact ⟨rfl, rfl, rfl, rfl, rfl⟩

theorem frameStartOp_frame (bad : List BadWord) (s : State) : (frameStartOp bad s).pending = s.pending ∧
    (frameStartOp bad s).caddy = s.caddy ∧ (frameStartOp bad s).thermos = s.thermos := by
  unfold frameStartOp
  split <;> exact ⟨rfl, rfl, rfl⟩

theorem State.moveCells_frame (old : List CellHealth) (s : State) : (s.moveCells old).pending = s.pending ∧
    (s.moveCells old).caddy = s.caddy ∧ (s.moveCells old).thermos = s.thermos := by
  unfold State.moveCells
  dsimp only
  split <;> exact ⟨rfl, rfl, rfl⟩

theorem execCellTestComplete_frame {k : Fin 192} {l : List TestRead} {s t : State} (e : execCellTestComplete k l s = .next t) :
    t.pending = s.pending ∧ t.caddy = s.caddy ∧ t.thermos = s.thermos := by
  unfold execCellTestComplete at e
  cases e
  split <;> simp

/-- A command that may write the cells and leaves the thermos as it is. -/
theorem writesOnlyItsOwn_of_cells {i : Instr} {s t : State} (h : writesCells i = true)
    (hf : t.pending = s.pending ∧ t.caddy = s.caddy ∧ t.thermos = s.thermos) : WritesOnlyItsOwn i s t := by
  obtain ⟨hpending, hcaddy, hthermos⟩ := hf
  exact ⟨hpending, fun _ => hcaddy, fun _ => by simp [hthermos], fun _ => by rw [hthermos], fun hno => by simp [h] at hno⟩

theorem writesOnlyItsOwn_machine {i : Instr} {s t : State} (h : onMachine i = true) (e : exec i s = .next t) :
    WritesOnlyItsOwn i s t := by
  cases i with
  | thermosStep =>
    cases e
    obtain ⟨hpending, hcaddy, hcells, hdnew⟩ := thermosStepOp_frame s
    exact ⟨hpending, fun _ => hcaddy, nofun, nofun, fun _ => ⟨hcells, hdnew⟩⟩
  | frameStrobe =>
    cases e
    obtain ⟨hpending, hcaddy, hhold, hcells, hdnew⟩ := frameStrobeOp_frame s
    exact ⟨hpending, fun _ => hcaddy, nofun, fun _ => hhold, fun _ => ⟨hcells, hdnew⟩⟩
  | frameComputationStart bad => cases e; exact writesOnlyItsOwn_of_cells rfl (frameStartOp_frame bad s)
  | roleMove k =>
    cases e
    refine writesOnlyItsOwn_of_cells rfl ?_
    simpa using State.moveCells_frame s.eng.health.cells (s.playEvents fun _ e => roleMoveOp k.val e)
  | cellTestComplete k l => exact writesOnlyItsOwn_of_cells rfl (execCellTestComplete_frame e)
  | _ => cases h

/-! ## The statement -/

/-- No command touches the queue, and none a memory that is not its own. -/
theorem exec_writesOnlyItsOwn {i : Instr} {s t : State} (e : exec i s = .next t) : WritesOnlyItsOwn i s t := by
  rcases kind_cases i with h | h | h | h | h | h | h
  · exact writesOnlyItsOwn_engine h e
  · exact writesOnlyItsOwn_endsStrobe h e
  · exact writesOnlyItsOwn_datapath h e
  · exact writesOnlyItsOwn_reset h e
  · exact writesOnlyItsOwn_supply h e
  · exact writesOnlyItsOwn_load h e
  · exact writesOnlyItsOwn_machine h e

/-- The commands that `CellWriters` excepts are those that may write the cells. -/
theorem writesCells_eq_false {i : Instr} (hd : onDatapath i = false) (hr : onReset i = false)
    (hf : ∀ bad, i ≠ .frameComputationStart bad) (hm : ∀ k, i ≠ .roleMove k) (ht : ∀ k l, i ≠ .cellTestComplete k l) :
    writesCells i = false := by
  unfold writesCells
  split
  · exact absurd rfl (hf _)
  · exact absurd rfl (hm _)
  · exact absurd rfl (ht _ _)
  · simp [hd, hr]

/-- Settles O6: each part is a field of the frame that every kind of command keeps. -/
theorem memoriesHaveTheirWriters : Obligations.MemoriesHaveTheirWriters := by
  refine ⟨fun i s t e => (exec_writesOnlyItsOwn e).caddy,
    fun i s t e => ⟨(exec_writesOnlyItsOwn e).words, (exec_writesOnlyItsOwn e).hold⟩,
    fun i s t e => ⟨(exec_writesOnlyItsOwn e).pending, fun hd hr hf hm ht => ?_⟩⟩
  exact (exec_writesOnlyItsOwn e).cells (writesCells_eq_false hd hr hf hm ht)

end Sys2Proof.Machine
end

section
/-! The supplies of the thermos, the crystal and the loss of the kettle (R97, R109, R128, R151, R152, R154): what a command does that raises
one fault in a quiet machine, and what R152 does at once. -/

namespace Sys2Proof.Machine

/-! ## No event waits -/

theorem State.quiet.evq_nil {s : State} (h : s.quiet) : s.eng.evq = [] := h.2.1

theorem State.inService.evq_nil {s : State} (h : s.inService) : s.eng.evq = [] := State.quiet.evq_nil h.1

theorem State.hears.evq_nil {t : Nat} {s : State} (h : s.hears t) : s.eng.evq = [] := State.inService.evq_nil h.1

/-! ## A command that raises at most one fault in a quiet machine -/

/-- Where no event waits, a raise leaves at most its own event to wait (R171, R863). -/
theorem Engine.raise_evq_of_nil {e : Engine} (h : e.evq = []) (code : Nat) :
    (e.raise code).evq = if e.served then [.fault code] else [] := by
  unfold Engine.raise
  simp only [h, insertAt]

/-- At most one event waits, and it is that of a fault. -/
def OneFaultAtMost (q : List Ev) : Prop := q = [] ∨ ∃ k, q = [.fault k]

theorem Engine.raise_oneFaultAtMost {e : Engine} (h : e.evq = []) (code : Nat) : OneFaultAtMost (e.raise code).evq := by
  rw [Engine.raise_evq_of_nil h]
  split
  · exact .inr ⟨code, rfl⟩
  · exact .inl rfl

/-- Where no binding is in use, settling removes the one event. -/
theorem settle_oneFault {c : Memory} {w : Engine} (hu : Unbound c w.image) (hq : OneFaultAtMost w.evq) :
    Engine.settle c w = { w with evq := [] } := by
  have hd : DialsIn w.evq := by rcases hq with hq | ⟨k, hq⟩ <;> simp [DialsIn, hq]
  rw [settle_unbound hu hd]
  rcases hq with hq | ⟨k, hq⟩ <;> simp [hq]

/-- At a strobe fault events wait (R866). -/
theorem settleAt_oneFault {c : Memory} {w : Engine} (hq : OneFaultAtMost w.evq) :
    Engine.settleAt c w = { w with evq := w.evq.filter Ev.isFault } := by
  rcases hq with hq | ⟨k, hq⟩ <;> simp [Engine.settleAt, hq, settle_nil, Ev.isFault]

/-- A command whose instant is known, where it leaves at most the event of a fault: what `actedAt` says. -/
theorem State.playAt_quiet {s : State} (hs : s.quiet) {f : Memory → Engine → Engine} (hi : (f s.caddy s.eng).image = s.eng.image)
    (hq : OneFaultAtMost (f s.caddy s.eng).evq) : s.playAt f = s.actedAt (f s.caddy s.eng) := by
  obtain ⟨hrun, hcalm, hu⟩ := hs
  unfold State.playAt State.actedAt
  by_cases hst : (f s.caddy s.eng).atStrobe = true
  · rw [if_pos ⟨hrun, hst⟩, if_pos hst, settleAt_oneFault hq]
  · have hu' : Unbound s.caddy (f s.caddy s.eng).image := hi ▸ hu
    rw [if_neg fun h => hst h.2, if_neg hst, State.playEvents_calm hrun hcalm, settle_oneFault hu' hq, State.acted]

/-- The general pins follow their fixed functions as `pinsFollow` says. -/
theorem gpFixedStep_eq (c : Memory) (w : Engine) : gpFixedStep c w = { w with pins := { w.pins with gp := pinsFollow c w } } := rfl

theorem State.playPinsAt_quiet {s : State} (hs : s.quiet) {f : Memory → Engine → Engine} (hi : (f s.caddy s.eng).image = s.eng.image)
    (hq : OneFaultAtMost (f s.caddy s.eng).evq) : s.playPinsAt f = s.actedAt (gpFixedStep s.caddy (f s.caddy s.eng)) :=
  State.playAt_quiet hs hi hq

/-! ## The rows -/

theorem msT_eq (n : Nat) : msT n = ((393216 * n : Nat) : Rat) := rfl

/-- An engine with a crystal that proceeds to no internal reset is clocked. -/
theorem Engine.clocked_iff (e : Engine) : e.clocked = true ↔ e.kettle.crystal = true ∧ e.kettle.down = none := by
  simp [Engine.clocked]

theorem kettleDown_evq {e : Engine} (h : e.evq = []) (t : Nat) : OneFaultAtMost (kettleDown t e).evq :=
  Engine.raise_oneFaultAtMost (e := outputsDown (e.at t)) h 0x01

theorem thermosSupply : ThermosSupply := fun _ => ⟨rfl, rfl, rfl⟩

theorem crystalValidOp_of_none (t : Nat) {e : Engine} (h : e.kettle.crystal = false) :
    crystalValidOp t e = (e.at t).onKettle fun k => { k with crystal := true, crystalAt := (t : Rat) } := by
  simp [crystalValidOp, h]

theorem crystalBecomesValid : CrystalBecomesValid := by
  refine ⟨fun t s hrun hcalm hx => ?_, fun t s hrun => ⟨_, ?_, rfl, rfl⟩⟩
  · rw [exec_crystalValid, execCrystalValid, if_pos hrun, State.play_calm hrun hcalm, crystalValidOp_of_none t hx]
    rfl
  · rw [exec_crystalValid, execCrystalValid, if_neg (by simp [hrun])]
    rfl

/-- Table 5-5: 20 ms after t0 without a crystal. -/
theorem crystalStartOp_due {t : Nat} {e : Engine} (hx : e.kettle.crystal = false) (hr : e.kettle.startRaised = false)
    (hd : e.kettle.down = none) (ht : 7864320 ≤ t) :
    crystalStartOp t e = ((e.at t).onKettle fun k => { k with startRaised := true }).raise 0x01 := by
  have hlate : ¬ (t : Rat) < msT 20 := by rw [msT_eq]; exact_mod_cast Nat.not_lt.mpr ht
  simp [crystalStartOp, hx, hr, hd, hlate]

theorem crystalStartFails : CrystalStartFails := by
  intro t s hs hx hr hd ht
  have hop := crystalStartOp_due hx hr hd ht
  rw [exec_crystalStartTimeout, execCrystalStartTimeout, State.playAt_quiet hs]
  · rw [hop]; rfl
  · rw [hop]; rfl
  · rw [hop]; exact Engine.raise_oneFaultAtMost (e := (s.eng.at t).onKettle _) hs.evq_nil 0x01

/-- R152 with the crystal lost (R151), and without. -/
theorem kettleGone_lost (c : Memory) (t : Nat) (e : Engine) : gpFixedStep c (crystalGone (kettleDown t e)) = kettleGone c t true e := rfl

theorem kettleGone_kept (c : Memory) (t : Nat) (e : Engine) : gpFixedStep c (kettleDown t e) = kettleGone c t false e := rfl

theorem exec_crystalLoss_running {t : Nat} {s : State} (h : s.running = true) :
    exec (.crystalLoss t) s = .next (s.playPinsAt fun _ e => crystalLossOp t e) := by
  rw [exec_crystalLoss, execCrystalLoss, if_pos h]

theorem crystalLossOp_clocked (t : Nat) {e : Engine} (h : e.clocked = true) : crystalLossOp t e = crystalGone (kettleDown t e) := by
  simp [crystalLossOp, h]

/-- A loss in the millisecond before the internal reset only stops the crystal (log 49). -/
theorem crystalLossOp_down (t : Nat) {e : Engine} (hx : e.kettle.crystal = true) (hd : e.kettle.down.isSome = true) :
    crystalLossOp t e = crystalGone ((e.at t).raise 0x01) := by
  have hc : e.clocked = false := by simp [Engine.clocked, hd]
  simp [crystalLossOp, hc, hx]

/-- R154: 20 ms after the loop started. -/
theorem loopTimeoutOp_due {t d : Nat} {e : Engine} (hc : e.clocked = true) (hl : e.kettle.locked = false)
    (ha : e.kettle.loopAt = some (d : Rat)) (ht : d + 7864320 ≤ t) : loopTimeoutOp t e = kettleDown t e := by
  have hlate : (d : Rat) + msT 20 < (t : Rat) + 1 := by rw [msT_eq]; exact_mod_cast Nat.lt_succ_of_le ht
  simp [loopTimeoutOp, ha, hc, hl, hlate]

theorem kettleLossStopsTheOutputs : KettleLossStopsTheOutputs := by
  refine ⟨fun t s hs hck => ?_, fun t d s hs hck hl ha ht => ?_, fun t d w s hs hx hd hw => ?_, fun t s hrun => ?_⟩
  · have hop := crystalLossOp_clocked t ((Engine.clocked_iff s.eng).mpr hck.2)
    rw [exec_crystalLoss_running hs.1, State.playPinsAt_quiet hs, hop, kettleGone_lost]
    · rw [hop]; rfl
    · rw [hop]; exact kettleDown_evq hs.evq_nil t
  · have hop := loopTimeoutOp_due ((Engine.clocked_iff s.eng).mpr hck.2) hl ha ht
    rw [exec_loopLockTimeout, execLoopLockTimeout, State.playPinsAt_quiet hs, hop, kettleGone_kept]
    · rw [hop]; rfl
    · rw [hop]; exact kettleDown_evq hs.evq_nil t
  · have hop := crystalLossOp_down t hx (by rw [hd]; rfl)
    subst hw
    rw [exec_crystalLoss_running hs.1, State.playPinsAt_quiet hs, hop]
    · rfl
    · rw [hop]; rfl
    · rw [hop]; exact Engine.raise_oneFaultAtMost (e := s.eng.at t) hs.evq_nil 0x01
  · rw [exec_crystalLoss, execCrystalLoss, if_neg (by simp [hrun])]
    rfl

/-- Settles O10: the supplies by computation, each loss as the one fault that a quiet machine raises and what R152 does with it. -/
theorem kettleLossIsRaised : Obligations.KettleLossIsRaised :=
  ⟨thermosSupply, crystalBecomesValid, crystalStartFails, kettleLossStopsTheOutputs⟩

end Sys2Proof.Machine
end

section
/-! B4 (R111 to R115, R168): the record or the defaults, and what they set. -/

namespace Sys2Proof.Machine

/-! ## T03 and the profile (R114) -/

theorem profileWord_of_marker {w d : Nat} (h : 32768 ≤ w) (hd : w / 256 % 16 = d) : profileWord w d = (w, w % 16) := by
  rw [profileWord, if_pos ⟨h, hd⟩]

theorem profileWord_of_strap {w d : Nat} (h : w < 32768 ∨ w / 256 % 16 ≠ d) : profileWord w d = (d + 256 * d, d) := by
  rw [profileWord, if_neg (by omega)]

theorem profileFollowsTheStrap : ProfileFollowsTheStrap := by
  refine fun w d hw hd => ⟨profileWord_of_marker, fun h => ?_⟩
  rw [profileWord_of_strap h]
  have hq : (d + 256 * d) / 256 = d := by
    rw [Nat.add_mul_div_left _ _ (by decide), Nat.div_eq_of_lt (by omega), Nat.zero_add]
  dsimp only
  omega

/-! ## The words of the record in force (R104, R111, R114, R168) -/

/-- The words that B4 starts from. -/
def recordInForce (s : State) : List W16 :=
  if s.thermos.recordOk = true then s.thermos.words else thermosDefaults s.caddy s.eng.image s.eng.straps.d

theorem recordInForce_length {s : State} (h : s.thermos.words.length = 64) : (recordInForce s).length = 64 := by
  unfold recordInForce
  split
  · exact h
  · simp [thermosDefaults]

/-- The words with T05 as the retained code `last` leaves it. -/
def withRetained (last : Option (Nat × Moment)) (ws : List W16) : List W16 :=
  match last with
  | some k => ws.set 5 (BitVec.ofNat 16 k.1)
  | none => ws

@[simp] theorem withRetained_length (last : Option (Nat × Moment)) (ws : List W16) : (withRetained last ws).length = ws.length := by
  cases last <;> simp [withRetained]

theorem nth_set_same {α : Type} (z v : α) {l : List α} {i : Nat} (h : i < l.length) : nth z (l.set i v) i = v := by
  simp [nth, h]

theorem nth_set_ne {α : Type} (z v : α) (l : List α) {i j : Nat} (h : j ≠ i) : nth z (l.set i v) j = nth z l j := by
  simp [nth, List.getElem?_set_ne h.symm]

theorem nth_withRetained_ne (last : Option (Nat × Moment)) (ws : List W16) {i : Nat} (h : i ≠ 5) :
    nth 0#16 (withRetained last ws) i = nth 0#16 ws i := by
  cases last with
  | none => rfl
  | some k => exact nth_set_ne _ _ _ h

theorem nth_withRetained_five (last : Option (Nat × Moment)) {ws : List W16} (h : 5 < ws.length) :
    nth 0#16 (withRetained last ws) 5 = (last.map fun x => BitVec.ofNat 16 x.1).getD (nth 0#16 ws 5) := by
  cases last with
  | none => rfl
  | some k => exact nth_set_same _ _ h

/-- The words `ws` with T03 by the profile rule at the level `d` of STRAP_D and T05 by the retained code. -/
def recordWith (last : Option (Nat × Moment)) (d : Nat) (ws : List W16) : List W16 :=
  withRetained last (ws.set 3 (BitVec.ofNat 16 (profileWord (nth 0#16 ws 3).toNat d).1))

/-! ## The step -/

/-- The engine after B4 with the words `ws` and the profile `prof`. -/
def Engine.afterB4 (ws : List W16) (prof : Nat) (e : Engine) : Engine :=
  let t1 := (nth 0#16 ws 1).toNat
  let m := mixOfRecord (t1 % 256) (decide (32768 ≤ t1)) (nth 0#16 ws 2).toNat prof
  { e with
    mix := m, mixLive := m, prof := ⟨prof, Slide.still 1, none⟩
    faults := { e.faults with dirty := false }
    steep := { e.steep with b4 := true, index0 := t1 % 256, muted0 := decide (32768 ≤ t1) } }

/-- The engine with THERMOS_LOST raised where the record is not used (R111). -/
def State.recordRead (s : State) : Engine := s.eng.later.raiseIf (!s.thermos.recordOk) 0x15

/-- Reading the record raises at most THERMOS_LOST, which before F leaves no event (R171). -/
theorem State.recordRead_fields {s : State} (hcalm : s.calm) (hf : s.eng.served = false) :
    s.recordRead.straps = s.eng.straps ∧ s.recordRead.image = s.eng.image ∧ s.recordRead.steep = s.eng.steep ∧ s.recordRead.evq = [] := by
  have hq : s.eng.later.evq = [] := hcalm
  have hf' : s.eng.later.served = false := hf
  unfold State.recordRead Engine.raiseIf
  split
  · exact ⟨rfl, rfl, rfl, by simp [Engine.raise, hq, hf']⟩
  · exact ⟨rfl, rfl, rfl, hq⟩

/-- The words that B4 writes. -/
def State.wordsOfB4 (s : State) : List W16 := recordWith s.recordRead.faults.last s.eng.straps.d (recordInForce s)

/-- The profile that B4 leaves in force. -/
def State.profileOfB4 (s : State) : Nat := (profileWord (nth 0#16 (recordInForce s) 3).toNat s.eng.straps.d).2

theorem thermosStepOp_eq {s : State} (hrun : s.running = true) (hcalm : s.calm) (hf : s.eng.served = false) (hm : s.eng.mode ≠ .load)
    (h1 : s.eng.steep.b1 = true) (h3 : s.eng.steep.b3 = true) (h4 : s.eng.steep.b4 = false) :
    thermosStepOp s = { s with
      thermos := ⟨s.wordsOfB4, thermosCrc s.wordsOfB4, false⟩, eng := s.recordRead.afterB4 s.wordsOfB4 s.profileOfB4 } := by
  obtain ⟨hstraps, himage, -, hevq⟩ := State.recordRead_fields hcalm hf
  have hgo : s.running = true ∧ s.eng.mode ≠ .load ∧ s.eng.steep.b1 = true ∧ s.eng.steep.b3 = true ∧ ¬ s.eng.steep.b4 = true :=
    ⟨hrun, hm, h1, h3, by simp [h4]⟩
  have hend : Engine.settle s.caddy (s.recordRead.afterB4 s.wordsOfB4 s.profileOfB4) = s.recordRead.afterB4 s.wordsOfB4 s.profileOfB4 :=
    settle_nil hevq
  unfold thermosStepOp
  simp only [if_pos hgo, settle_nil hcalm]
  rw [← hend]
  unfold State.wordsOfB4 State.profileOfB4 recordWith recordInForce
  rw [← hstraps, ← himage]
  rfl

/-- What the words of B4 are, word by word. -/
theorem recordWith_words {last : Option (Nat × Moment)} {d : Nat} {ws : List W16} (h : ws.length = 64) :
    (recordWith last d ws).length = 64 ∧ (∀ i, i ≠ 3 → i ≠ 5 → nth 0#16 (recordWith last d ws) i = nth 0#16 ws i) ∧
      nth 0#16 (recordWith last d ws) 3 = BitVec.ofNat 16 (profileWord (nth 0#16 ws 3).toNat d).1 ∧
      nth 0#16 (recordWith last d ws) 5 = (last.map fun x => BitVec.ofNat 16 x.1).getD (nth 0#16 ws 5) := by
  unfold recordWith
  refine ⟨by simp [h], fun i h3 h5 => ?_, ?_, ?_⟩
  · rw [nth_withRetained_ne _ _ h5, nth_set_ne _ _ _ h3]
  · rw [nth_withRetained_ne _ _ (by decide), nth_set_same _ _ (by omega)]
  · rw [nth_withRetained_five _ (by simp [h]), nth_set_ne _ _ _ (by decide)]

/-- The gains that a record gives stand still: gM at 0 where it is muted, gsP and gsV at 0 where the source leaves out their signal (R115, R623,
R624). -/
theorem mixOfRecord_gains (index : Nat) (muted : Bool) (source profile : Nat) :
    (mixOfRecord index muted source profile).gM = Slide.still (if muted = true then 0 else 1) ∧
      (mixOfRecord index muted source profile).gsP = Slide.still (if source = 2 then 0 else 1) ∧
      (mixOfRecord index muted source profile).gsV = Slide.still (if source = 1 then 0 else 1) := by
  refine ⟨?_, ?_, ?_⟩
  · cases muted <;> rfl
  · by_cases h : source = 2 <;> simp [mixOfRecord, h]
  · by_cases h : source = 1 <;> simp [mixOfRecord, h]

theorem thermosStepTakesTheRecord : ThermosStepTakesTheRecord := by
  intro ws w3 e s hrun hcalm hf hm h1 h3 h4 hlen hws hw3 he
  subst hw3 he
  have hws' : ws = recordInForce s := hws
  subst hws'
  obtain ⟨hlength, hkeep, hword3, hword5⟩ :=
    recordWith_words (last := s.recordRead.faults.last) (d := s.eng.straps.d) (recordInForce_length hlen)
  obtain ⟨-, -, hsteep, -⟩ := State.recordRead_fields hcalm hf
  obtain ⟨hgM, hgsP, hgsV⟩ := mixOfRecord_gains ((nth 0#16 s.wordsOfB4 1).toNat % 256) (decide (32768 ≤ (nth 0#16 s.wordsOfB4 1).toNat))
    (nth 0#16 s.wordsOfB4 2).toNat s.profileOfB4
  refine ⟨_, congrArg Host.Outcome.next (thermosStepOp_eq hrun hcalm hf hm h1 h3 h4), rfl, hlength, rfl, hkeep, hword3, rfl, hword5, rfl, rfl,
    rfl, rfl, hgM, hgsP, hgsV, ?_⟩
  rw [← hsteep]
  rfl

/-- Settles O23: B4 leaves the words of the record in force but for T03 and T05, and the mix that they give. -/
theorem recordIsTaken : Obligations.RecordIsTaken := ⟨thermosStepTakesTheRecord, profileFollowsTheStrap⟩

end Sys2Proof.Machine
end

section
/-! A program change (R106, R284, R791): the message as the parser takes it, and what the selection of a patch leaves. -/

namespace Sys2Proof.Machine

/-! ## A channel message of one data byte (R274, R279) -/

/-- A status byte of a channel message starts a message (Table 7-4). -/
theorem Parser.step_status {p : Parser} {st : Byte} (hlo : 0x80 ≤ st.toNat) (hhi : st.toNat < 0xF0) (hp : p.status = none) :
    p.step st = (⟨some st, some st, [], false⟩, none, false) := by
  have h8 : ¬ 0xF8 ≤ st.toNat := by omega
  have h0 : ¬ 0xF0 ≤ st.toNat := by omega
  simp only [Parser.step, if_neg h8, if_neg h0, if_pos hlo, hp, Option.isSome_none]

/-- The last data byte of a channel message ends it; its status byte stays as the running one. -/
theorem Parser.step_last {r : Option Byte} {st b : Byte} (hst : st.toNat < 0xF0) (hn : dataCount st = 1) (hb : b.toNat < 0x80) :
    (⟨r, some st, [], false⟩ : Parser).step b = (⟨r, none, [], false⟩, some [st, b], false) := by
  have h8 : ¬ 0xF8 ≤ b.toNat := by omega
  have h0 : ¬ 0xF0 ≤ b.toNat := by omega
  have h7 : ¬ 0x80 ≤ b.toNat := by omega
  simp [Parser.step, h8, h0, h7, hn, hst]

/-- The engine that has heard the bytes of a message with status byte `st` up to `t`, before the message acts. -/
def Engine.heard (st : Byte) (t : Nat) (e : Engine) : Engine :=
  { e.seen (t : Rat) with link := { e.link with parser := ⟨some st, none, [], false⟩ } }

/-- The reference of the idle line moves to `t` (R272). -/
def Engine.refAt (t : Nat) (e : Engine) : Engine := { e with link := { e.link with ref := some (t : Rat) } }

/-- The parser stands at `p`. -/
def Engine.parsed (p : Parser) (e : Engine) : Engine := { e with link := { e.link with parser := p } }

/-- A byte that completes no message moves the parser alone. -/
theorem parseByte_silent (c : Memory) (t : Time) {e : Engine} {b : Byte} {p : Parser} (h : e.link.parser.step b = (p, none, false)) :
    parseByte c t e b = e.parsed p := by
  unfold parseByte
  rw [h]
  rfl

/-- A byte that completes a message in full service lets it act. -/
theorem parseByte_message (c : Memory) (t : Time) {e : Engine} {b : Byte} {p : Parser} {bs : List Byte}
    (h : e.link.parser.step b = (p, some bs, false)) (hf : e.served = true) : parseByte c t e b = applyAny c bs (e.parsed p) := by
  have hf' : (e.parsed p).served = true := hf
  have hdeliver : parseByte c t e b = deliver c bs t (e.parsed p) := by
    unfold parseByte
    rw [h]
    rfl
  rw [hdeliver, deliver, if_pos hf']

/-- In full service a message of one data byte acts at once, and its last stop sample is the reference of the idle line. -/
theorem parseMessage_one {c : Memory} {st b : Byte} {t : Nat} {e : Engine} (hdue : midiDue t e = true)
    (hstatus : e.link.parser.status = none) (hf : e.served = true) (hlo : 0x80 ≤ st.toNat) (hhi : st.toNat < 0xF0)
    (hn : dataCount st = 1) (hb : b.toNat < 0x80) :
    parseMessage c [st, b] t (e.seen (t : Rat)) = (applyMessage c [st, b] (e.heard st t)).refAt t := by
  have hfirst : parseByte c (t : Rat) (e.seen (t : Rat)) st = (e.seen (t : Rat)).parsed ⟨some st, some st, [], false⟩ :=
    parseByte_silent c _ (Parser.step_status hlo hhi hstatus)
  have hlast : parseByte c (t : Rat) ((e.seen (t : Rat)).parsed ⟨some st, some st, [], false⟩) b = applyMessage c [st, b] (e.heard st t) :=
    parseByte_message c _ (e := (e.seen (t : Rat)).parsed _) (Parser.step_last hhi hn hb) hf
  have hdue' : midiDue t (e.seen (t : Rat)) = true := hdue
  rw [parseMessage, if_pos hdue', List.foldl_cons, List.foldl_cons, List.foldl_nil, hfirst, hlast]
  rfl

/-- The row of such a message in full service: what it does to the engine that has heard it, where it leaves no event waiting. -/
theorem messageRow_one {st b : Byte} {t : Nat} {s : State} (h : s.hears t) (hlo : 0x80 ≤ st.toNat) (hhi : st.toNat < 0xF0)
    (hn : dataCount st = 1) (hb : b.toNat < 0x80) (hev : (applyMessage s.caddy [st, b] (s.eng.heard st t)).evq = []) :
    messageRow [st, b] t s = .next { s with eng := (applyMessage s.caddy [st, b] (s.eng.heard st t)).refAt t } := by
  obtain ⟨⟨⟨hrun, hcalm, -⟩, hf⟩, hdue, hstatus, -, -⟩ := h
  rw [messageRow, State.playEvents_calm hrun hcalm, parseMessage_one hdue hstatus hf hlo hhi hn hb, settle_nil]
  exact hev

/-- Where the message does nothing, only the receiver has heard it. -/
theorem heard_refAt {e : Engine} (h : e.evq = []) (st : Byte) (t : Nat) : (e.heard st t).refAt t = heardAs st t e := by
  unfold heardAs
  rw [← h]
  rfl

/-! ## What the selection of a patch may change besides the part (R284, R287) -/

/-- From `e` to `e'` nothing changes but the note stacks, the held keys, the lanes and the conductor's writes. -/
def OnlyLanes (e e' : Engine) : Prop :=
  e' = { e with
    cond := { e.cond with noteStacks := e'.cond.noteStacks }
    tempo := { e.tempo with keys := e'.tempo.keys, lanes := e'.tempo.lanes, writes := e'.tempo.writes } }

theorem OnlyLanes.refl (e : Engine) : OnlyLanes e e := rfl

theorem OnlyLanes.trans {a b c : Engine} (h : OnlyLanes a b) (h' : OnlyLanes b c) : OnlyLanes a c := by
  unfold OnlyLanes at *
  rw [h', h]

theorem onlyLanes_setStack (p : Nat) (l : List Nat) (e : Engine) : OnlyLanes e (e.setStack p l) := rfl

theorem onlyLanes_setKeys (p : Nat) (l : List Key) (e : Engine) : OnlyLanes e (e.setKeys p l) := rfl

theorem onlyLanes_mapLane (m : Nat) (f : Lane → Lane) (e : Engine) : OnlyLanes e (e.mapLane m f) := rfl

theorem onlyLanes_schedule (w : CWrite) (e : Engine) : OnlyLanes e (e.schedule w) := rfl

theorem onlyLanes_laneWrap (c : Memory) (p : Nat) (e : Engine) : OnlyLanes e (laneWrap c p e) := by
  unfold laneWrap
  split
  · exact .refl e
  · dsimp only
    split
    · exact onlyLanes_mapLane ..
    · exact .refl e

theorem onlyLanes_purgeKeys (c : Memory) (p : Nat) (e : Engine) : OnlyLanes e (purgeKeys c p e) := by
  unfold purgeKeys
  dsimp only
  split
  · exact .refl e
  · exact (onlyLanes_setKeys ..).trans (onlyLanes_laneWrap ..)

/-! ## The selection of a patch (R284, R287, R791) -/

/-- The record of part `p` with program `prog` of bank `bank`. -/
def Engine.selected (c : Memory) (p bank prog : Nat) (e : Engine) : PartRec :=
  let patch := resolvePatch e.image bank prog
  withBend c patch { e.part p with bank := bank, patchNo := prog, patch := patch, macros := macrosInit c patch e.target }

/-- The note stack of part `p` empties where the voice mode is no longer `old` (R284). -/
def emptyStack (c : Memory) (p old : Nat) (e : Engine) : Engine := if partMode c e p ≠ old then e.setStack p [] else e

/-- The lane of part `p` counts anew where it runs. -/
def resumeLane (p : Nat) (e : Engine) : Engine :=
  match laneOf e p with
  | some m => if (e.lane m).going then e.schedule (.lane m) else e
  | none => e

theorem onlyLanes_emptyStack (c : Memory) (p old : Nat) (e : Engine) : OnlyLanes e (emptyStack c p old e) := by
  unfold emptyStack
  split
  · exact onlyLanes_setStack ..
  · exact .refl e

theorem onlyLanes_resumeLane (p : Nat) (e : Engine) : OnlyLanes e (resumeLane p e) := by
  unfold resumeLane
  split
  · split
    · exact onlyLanes_schedule ..
    · exact .refl e
  · exact .refl e

/-- What the stack, the keys and the lane of the part make of its new record. -/
def followPatch (c : Memory) (p old : Nat) (e : Engine) : Engine := resumeLane p (purgeKeys c p (laneWrap c p (emptyStack c p old e)))

theorem onlyLanes_followPatch (c : Memory) (p old : Nat) (e : Engine) : OnlyLanes e (followPatch c p old e) :=
  (((onlyLanes_emptyStack ..).trans (onlyLanes_laneWrap ..)).trans (onlyLanes_purgeKeys ..)).trans (onlyLanes_resumeLane ..)

/-- The selection of a patch is the new record of the part, what follows from it, and the part's word of the thermos. -/
theorem selectPatch_eq (c : Memory) (p bank prog : Nat) (e : Engine) : selectPatch c p bank prog e =
    (followPatch c p (partMode c e p) (e.setPart p (e.selected c p bank prog))).writeWord (0x10 + (p - 1))
      (BitVec.ofNat 16 (prog + 128 * bank)) := by
  unfold selectPatch followPatch resumeLane emptyStack Engine.selected
  rfl

/-- What the selection of a patch leaves, apart from the note stack, the keys and the lane of the part. -/
theorem selectPatch_frame {c : Memory} {p bank prog : Nat} {e u : Engine} (hu : u = selectPatch c p bank prog e) :
    u = { e with
      parts := e.parts.set (p - 1) (e.selected c p bank prog)
      partChg := e.partChg ++ [(e.target, p - 1, e.selected c p bank prog)]
      due := e.due ++ [(e.target, 0x10 + (p - 1), BitVec.ofNat 16 (prog + 128 * bank))]
      cond := { e.cond with noteStacks := u.cond.noteStacks }
      tempo := { e.tempo with keys := u.tempo.keys, lanes := u.tempo.lanes, writes := u.tempo.writes } } := by
  have hlanes := onlyLanes_followPatch c p (partMode c e p) (e.setPart p (e.selected c p bank prog))
  subst hu
  rw [selectPatch_eq]
  generalize followPatch c p (partMode c e p) (e.setPart p (e.selected c p bank prog)) = e' at hlanes ⊢
  unfold OnlyLanes at hlanes
  rw [hlanes]
  rfl

/-! ## The message (Table 7-4) -/

theorem programChangeOp_latched {c : Memory} {p prog b : Nat} {e : Engine}
    (h : (e.part p).latch = some (some b) ∨ (e.part p).latch = none ∧ b = defaultBank e.straps) :
    programChangeOp c p prog e = selectPatch c p b prog e := by
  unfold programChangeOp
  rcases h with h | ⟨h, rfl⟩ <;> rw [h]

theorem programChangeOp_invalid {c : Memory} {p prog : Nat} {e : Engine} (h : (e.part p).latch = some none) :
    programChangeOp c p prog e = e := by
  unfold programChangeOp
  rw [h]

/-- The status byte of a program change. -/
theorem statusByte_programChange : ∀ ch : BitVec 4, statusByte 12 ch = 0xC0#8 ||| ch.setWidth 8 ∧ (statusByte 12 ch).toNat = 192 + ch.toNat := by
  decide

theorem dataCount_programChange : ∀ ch : BitVec 4, dataCount (statusByte 12 ch) = 1 := by decide

theorem dataByte_toNat (p : BitVec 7) : (dataByte p).toNat = p.toNat := by
  have := p.isLt
  simp [dataByte]
  omega

theorem applyMessage_programChange {c : Memory} {ch : BitVec 4} {p : BitVec 7} {e : Engine} (hon : partOn c e (partOf ch) = true) :
    applyMessage c [statusByte 12 ch, dataByte p] e = programChangeOp c (partOf ch) p.toNat e := by
  have hch := ch.isLt
  obtain ⟨-, hst⟩ := statusByte_programChange ch
  have hpart : (statusByte 12 ch).toNat % 16 + 1 = partOf ch := by rw [hst, partOf]; omega
  have hkind : (statusByte 12 ch).toNat / 16 = 12 := by omega
  have hdata : (nth 0#8 [dataByte p] 0).toNat = p.toNat := dataByte_toNat p
  simp only [applyMessage, hpart, hkind, hdata, if_pos hon]

theorem partOn_heard (c : Memory) (st : Byte) (t : Nat) (e : Engine) (p : Nat) : partOn c (e.heard st t) p = partOn c e p := rfl

/-- The row of a program change in full service, by what the program change does to the engine that has heard it. -/
theorem exec_programChange_eq {ch : BitVec 4} {p : BitVec 7} {t : Nat} {s : State} (h : s.hears t)
    (hon : partOn s.caddy s.eng (partOf ch) = true) {e' : Engine}
    (hop : programChangeOp s.caddy (partOf ch) p.toNat (s.eng.heard (statusByte 12 ch) t) = e') (hev : e'.evq = []) :
    exec (.programChange ch p t) s = .next { s with eng := e'.refAt t } := by
  have hch := ch.isLt
  obtain ⟨-, hst⟩ := statusByte_programChange ch
  have hlo : 0x80 ≤ (statusByte 12 ch).toNat := by omega
  have hhi : (statusByte 12 ch).toNat < 0xF0 := by omega
  have hdata : (dataByte p).toNat < 0x80 := by rw [dataByte_toNat]; exact p.isLt
  have happly := (applyMessage_programChange (p := p) ((partOn_heard _ _ t _ _).trans hon)).trans hop
  have hrow := messageRow_one h hlo hhi (dataCount_programChange ch) hdata (by rw [happly]; exact hev)
  rw [happly] at hrow
  exact hrow

/-! ## The statement -/

/-- A part that the list holds reads back what was set. -/
theorem part_of_parts_set {e e' : Engine} {ch : BitVec 4} {r : PartRec} (h : e'.parts = e.parts.set ch.toNat r)
    (hlen : ch.toNat < e.parts.length) : e'.part (partOf ch) = r := by
  simp [Engine.part, partOf, nth, h, hlen]

theorem programChange_selects {ch : BitVec 4} {p : BitVec 7} {t b : Nat} {s : State} (h : s.hears t)
    (hon : partOn s.caddy s.eng (partOf ch) = true)
    (hb : (s.eng.part (partOf ch)).latch = some (some b) ∨ (s.eng.part (partOf ch)).latch = none ∧ b = defaultBank s.eng.straps)
    {w : Engine} (hw : w = selectPatch s.caddy (partOf ch) b p.toNat (s.eng.heard (statusByte 12 ch) t)) :
    exec (.programChange ch p t) s = .next { s with eng := w.refAt t } := by
  have hop : programChangeOp s.caddy (partOf ch) p.toNat (s.eng.heard (statusByte 12 ch) t) = w :=
    (programChangeOp_latched (e := s.eng.heard (statusByte 12 ch) t) hb).trans hw.symm
  refine exec_programChange_eq h hon hop ?_
  rw [selectPatch_frame hw]
  exact h.evq_nil

/-- Settles O38: the message reaches `selectPatch` with the latched or the default bank, and what that leaves is its frame. -/
theorem programChangeSelectsThePatch : Obligations.ProgramChangeSelectsThePatch := by
  intro ch p t s h hon hlen
  obtain ⟨hst, -⟩ := statusByte_programChange ch
  have hcalm : s.eng.evq = [] := h.evq_nil
  refine ⟨fun hnone => ?_, fun b hb => ?_⟩
  · rw [exec_programChange_eq h hon (programChangeOp_invalid (e := s.eng.heard (statusByte 12 ch) t) hnone) hcalm, heard_refAt hcalm, hst]
  · obtain ⟨w, hw⟩ : ∃ w, w = selectPatch s.caddy (partOf ch) b p.toNat (s.eng.heard (statusByte 12 ch) t) := ⟨_, rfl⟩
    have hframe := selectPatch_frame hw
    have hparts : w.parts = s.eng.parts.set ch.toNat ((s.eng.heard (statusByte 12 ch) t).selected s.caddy (partOf ch) b p.toNat) := by
      rw [hframe]; rfl
    have hpart := part_of_parts_set (e' := w.refAt t) hparts hlen
    refine ⟨_, programChange_selects h hon hb hw, ?_⟩
    rw [hpart]
    refine ⟨rfl, rfl, rfl, rfl, rfl, ?_, ?_⟩
    · rw [hframe]; rfl
    · rw [hframe, ← hst, ← heard_refAt hcalm]
      rfl

end Sys2Proof.Machine
end

section
/-! The actions on the mix (R618, R622 to R624, R631, R824, R843, Table 20-11): the rule of a row of the catalogue, one rule for each
setting, and the settings that each action leaves. -/

namespace Sys2Proof.Machine

/-! ## The row of an action -/

/-- An action that leaves no event waiting, where none waited, acts from F on and does nothing before it (R171). -/
theorem actionRow_calm {s : State} {f : Memory → Engine → Engine} (hrun : s.running = true) (hcalm : s.calm)
    (hev : (f s.caddy s.eng).evq = []) :
    actionRow f s = .next { s with eng := if s.eng.served then f s.caddy s.eng else s.eng } := by
  rw [actionRow, State.playEvents_calm hrun hcalm, settle_nil]
  split
  · exact hev
  · exact hcalm

theorem actionRow_inService {s : State} {f : Memory → Engine → Engine} (hs : s.inService) (hev : (f s.caddy s.eng).evq = []) :
    actionRow f s = .next { s with eng := f s.caddy s.eng } := by
  obtain ⟨⟨hrun, hcalm, -⟩, hf⟩ := hs
  rw [actionRow_calm hrun hcalm hev, if_pos hf]

/-- An action that changes nothing where no event waits, in reset and outside, before F and after. -/
theorem actionRow_of_eq {s : State} {f : Memory → Engine → Engine} (hcalm : s.calm) (h : f s.caddy s.eng = s.eng) :
    actionRow f s = .next s := by
  cases hrun : s.running with
  | false => rw [actionRow, State.playEvents_reset hrun]
  | true =>
    rw [actionRow_calm hrun hcalm (by rw [h]; exact hcalm), h, ite_self]

/-- The settings `m` with the word `w` at `i` of the thermos due: the outcome of an action on the mix. -/
def Engine.mixTo (m : MixRec) (i : Nat) (w : W16) (e : Engine) : Engine := (e.setMix m).writeWord i w

theorem mixBecomes_mixTo {s : State} (hs : s.inService) (m : MixRec) (i : Nat) (w : W16) :
    MixBecomes m i w s { s with eng := s.eng.mixTo m i w } := by
  have hcalm : s.eng.evq = [] := hs.evq_nil
  unfold MixBecomes Engine.mixTo Engine.setMix Engine.writeWord
  rw [hcalm]
  rfl

/-- An action whose outcome is the settings `m` and the word `w` of the thermos. -/
theorem actionRow_mixTo {s : State} {f : Memory → Engine → Engine} (hs : s.inService) {m : MixRec} {i : Nat} {w : W16}
    (h : f s.caddy s.eng = s.eng.mixTo m i w) : actionRow f s = .next { s with eng := s.eng.mixTo m i w } := by
  rw [actionRow_inService hs (by rw [h]; exact hs.evq_nil), h]

/-! ## Volume and mute (R622, R623, R843) -/

/-- Every volume ramp ends at the gain of its index. -/
theorem volumeRamp_v1 (i : Nat) (e : Engine) : (volumeRamp i e).v1 = volDb i := by
  unfold volumeRamp
  dsimp only
  split
  · split <;> rfl
  · rfl
  · rfl

/-- The settings after a change of the volume index to `i`. -/
def Engine.withVolume (i : Nat) (e : Engine) : MixRec :=
  { e.mix with
    index := i
    vol := if i = e.mix.index then e.mix.vol else volumeRamp i e
    muted := e.mix.muted && !(decide (e.mix.index < i) && e.mix.muted)
    gM := if decide (e.mix.index < i) && e.mix.muted then e.mix.gM.turn 1 e.target (rmFrames e.kettle.fam) else e.mix.gM }

theorem setVolume_eq (i : Nat) (e : Engine) : setVolume i e = e.mixTo (e.withVolume i) 1 (wordT01 (e.withVolume i)) := rfl

theorem withVolume_vol (i : Nat) (e : Engine) : (i ≠ e.mix.index → (e.withVolume i).vol.v1 = volDb i) ∧
    (i = e.mix.index → (e.withVolume i).vol = e.mix.vol) := by
  unfold Engine.withVolume
  exact ⟨fun h => by simp only [if_neg h, volumeRamp_v1], fun h => by simp only [if_pos h]⟩

/-- Where the mix is not muted, an index changes nothing but itself and the ramp. -/
theorem withVolume_unmuted (i : Nat) {e : Engine} (h : e.mix.muted = false) :
    e.withVolume i = { e.mix with index := i, vol := (e.withVolume i).vol } := by
  simp [Engine.withVolume, h]

theorem wordT01_unmuted {m : MixRec} (h : m.muted = false) : wordT01 m = BitVec.ofNat 16 m.index := by simp [wordT01, h]

theorem wordT01_muted {m : MixRec} (h : m.muted = true) : wordT01 m = BitVec.ofNat 16 (m.index + 32768) := by simp [wordT01, h]

/-- The settings after a change of the mute. -/
def Engine.withMute (on : Bool) (e : Engine) : MixRec :=
  { e.mix with muted := on, gM := e.mix.gM.turn (if on then 0 else 1) e.target (rmFrames e.kettle.fam) }

theorem setMute_eq {on : Bool} {e : Engine} (h : e.mix.muted ≠ on) :
    setMute on e = e.mixTo (e.withMute on) 1 (wordT01 (e.withMute on)) := by
  simp only [setMute, if_neg h]
  rfl

theorem setMute_same {on : Bool} {e : Engine} (h : e.mix.muted = on) : setMute on e = e := by simp [setMute, h]

theorem actVolumeStep_eq {v : Int} {n : Nat} {e : Engine} (hlo : -255 ≤ v) (hhi : v ≤ 255)
    (hn : (n : Int) = max 0 (min 255 ((e.mix.index : Int) + v))) : actVolumeStep v e = setVolume n e := by
  rw [actVolumeStep, if_pos ⟨hlo, hhi⟩, ← hn, Int.toNat_natCast]

theorem actVolumeSet_eq {v : Int} {n : Nat} {e : Engine} (hv : v = n) (hn : n ≤ 255) : actVolumeSet v e = setVolume n e := by
  rw [actVolumeSet, if_pos (by omega), hv, Int.toNat_natCast]

/-- An action that sets the volume index of a mix that is not muted. -/
theorem volumeAction_unmuted {s : State} {f : Memory → Engine → Engine} {n : Nat} (hs : s.inService) (hm : s.eng.mix.muted = false)
    (hf : f s.caddy s.eng = setVolume n s.eng) : ∃ u m, actionRow f s = .next u ∧ MixBecomes m 1 (BitVec.ofNat 16 n) s u ∧
      m = { s.eng.mix with index := n, vol := m.vol } ∧ (n ≠ s.eng.mix.index → m.vol.v1 = volDb n) ∧
      (n = s.eng.mix.index → m.vol = s.eng.mix.vol) := by
  have hmuted : (s.eng.withVolume n).muted = false := by simp [Engine.withVolume, hm]
  have hw : BitVec.ofNat 16 n = wordT01 (s.eng.withVolume n) := (wordT01_unmuted hmuted).symm
  obtain ⟨hnew, hsame⟩ := withVolume_vol n s.eng
  exact ⟨_, s.eng.withVolume n, actionRow_mixTo hs (hf.trans (setVolume_eq n s.eng)), hw ▸ mixBecomes_mixTo hs _ _ _,
    withVolume_unmuted n hm, hnew, hsame⟩

/-- VOLUME_SET on a muted mix: a higher index lifts the mute, any other keeps it (R623, log 60). -/
theorem volumeSet_muted {v : W32} {n : Nat} {s : State} (hs : s.inService) (hm : s.eng.mix.muted = true) (hv : v.toInt = (n : Int))
    (hn : n ≤ 255) : ∃ u m, exec (.volumeSet v) s = .next u ∧
      MixBecomes m 1 (BitVec.ofNat 16 (n + if s.eng.mix.index < n then 0 else 32768)) s u ∧ m.index = n ∧
      m.muted = decide (n ≤ s.eng.mix.index) ∧ (s.eng.mix.index < n → m.gM.v1 = 1) := by
  have hw : wordT01 (s.eng.withVolume n) = BitVec.ofNat 16 (n + if s.eng.mix.index < n then 0 else 32768) := by
    by_cases h : s.eng.mix.index < n <;> simp [wordT01, Engine.withVolume, hm, h]
  refine ⟨_, s.eng.withVolume n, actionRow_mixTo hs ((actVolumeSet_eq hv hn).trans (setVolume_eq n s.eng)),
    hw ▸ mixBecomes_mixTo hs _ _ _, rfl, ?_, fun h => ?_⟩
  · by_cases h : s.eng.mix.index < n
    · simp [Engine.withVolume, hm, h]
    · simp [Engine.withVolume, hm, h, Nat.not_lt.mp h]
  · simp [Engine.withVolume, hm, h, Slide.turn]

theorem volumeAction_outOfRange {v : W32} {s : State} (hcalm : s.calm) (h : v.toInt < -255 ∨ 255 < v.toInt) :
    exec (.volumeStep v) s = .next s ∧ exec (.volumeSet v) s = .next s := by
  refine ⟨actionRow_of_eq hcalm ?_, actionRow_of_eq hcalm ?_⟩
  · rw [actVolumeStep, if_neg (by omega)]
  · rw [actVolumeSet, if_neg (by omega)]

theorem volumeAndMute : VolumeAndMute := by
  refine ⟨fun v n s hs hm => ⟨fun hlo hhi hn => ?_, fun hv hn => ?_⟩, fun v n s hs hm hv hn => ?_,
    fun v s hcalm h => volumeAction_outOfRange hcalm h, fun s hs hm => ?_, fun s hs hm => ?_⟩
  · exact volumeAction_unmuted hs hm (actVolumeStep_eq hlo hhi hn)
  · exact volumeAction_unmuted hs hm (actVolumeSet_eq hv hn)
  · exact volumeSet_muted hs hm hv hn
  · have hset := setMute_eq (on := true) (e := s.eng) (by simp [hm])
    refine ⟨_, s.eng.withMute true, actionRow_mixTo hs hset, actionRow_mixTo hs ?_, actionRow_of_eq hs.evq_nil (setMute_same hm), ?_,
      rfl, rfl, rfl, rfl, rfl⟩
    · rw [hm]; exact hset
    · exact wordT01_muted (m := s.eng.withMute true) rfl ▸ mixBecomes_mixTo hs _ _ _
  · have hset := setMute_eq (on := false) (e := s.eng) (by simp [hm])
    refine ⟨_, s.eng.withMute false, actionRow_mixTo hs hset, actionRow_mixTo hs ?_, actionRow_of_eq hs.evq_nil (setMute_same hm), ?_,
      rfl, rfl, rfl, rfl, rfl⟩
    · rw [hm]; exact hset
    · exact wordT01_unmuted (m := s.eng.withMute false) rfl ▸ mixBecomes_mixTo hs _ _ _

/-! ## Source (R624) and profile (R631) -/

/-- A gain that goes to `v`, where it does not go there already. -/
def Slide.toward (v : Rat) (f n : Nat) (s : Slide) : Slide := if s.v1 = v then s else s.turn v f n

theorem Slide.toward_v1 (v : Rat) (f n : Nat) (s : Slide) : (s.toward v f n).v1 = v := by
  unfold Slide.toward
  split
  · assumption
  · rfl

/-- The settings after a change of the source to `n`. -/
def Engine.withSource (n : Nat) (e : Engine) : MixRec :=
  { e.mix with
    source := n
    gsP := e.mix.gsP.toward (if n = 2 then 0 else 1) e.target (rmFrames e.kettle.fam)
    gsV := e.mix.gsV.toward (if n = 1 then 0 else 1) e.target (rmFrames e.kettle.fam) }

theorem setSource_eq {n : Nat} {e : Engine} (h : n ≠ e.mix.source) : setSource n e = e.mixTo (e.withSource n) 2 (BitVec.ofNat 16 n) := by
  simp only [setSource, if_neg h.symm]
  rfl

theorem setSource_same (e : Engine) : setSource e.mix.source e = e := by simp [setSource]

theorem setProfile_eq {n : Nat} {e : Engine} (h : n ≠ e.mix.profile) :
    setProfile n e = e.mixTo { e.mix with profile := n } 3 (BitVec.ofNat 16 (n + 256 * e.straps.d + 32768)) := by
  rw [setProfile, if_neg h.symm]
  rfl

theorem setProfile_same (e : Engine) : setProfile e.mix.profile e = e := by simp [setProfile]

theorem actSourceSet_eq {v : Int} {n : Nat} {e : Engine} (hv : v = n) (hn : n ≤ 2) : actSourceSet v e = setSource n e := by
  rw [actSourceSet, if_pos (by omega), hv, Int.toNat_natCast]

theorem actProfileSet_eq {v : Int} {n : Nat} {e : Engine} (hv : v = n) (hn : n ≤ 15) : actProfileSet v e = setProfile n e := by
  rw [actProfileSet, if_pos (by omega), hv, Int.toNat_natCast]

/-- Log 36: a source out of range or in force changes nothing. -/
theorem actSourceSet_idle {v : Int} {e : Engine} (h : v < 0 ∨ 2 < v ∨ v = e.mix.source) : actSourceSet v e = e := by
  unfold actSourceSet
  split
  · have hv : v.toNat = e.mix.source := by omega
    rw [hv, setSource_same]
  · rfl

/-- Log 36: a profile out of range or in force changes nothing. -/
theorem actProfileSet_idle {v : Int} {e : Engine} (h : v < 0 ∨ 15 < v ∨ v = e.mix.profile) : actProfileSet v e = e := by
  unfold actProfileSet
  split
  · have hv : v.toNat = e.mix.profile := by omega
    rw [hv, setProfile_same]
  · rfl

/-- An action that sets the profile to one that is not in force. -/
theorem profileAction {s : State} {f : Memory → Engine → Engine} {n : Nat} (hs : s.inService) (hne : n ≠ s.eng.mix.profile)
    (hf : f s.caddy s.eng = setProfile n s.eng) : ∃ u, actionRow f s = .next u ∧
      MixBecomes { s.eng.mix with profile := n } 3 (BitVec.ofNat 16 (n + 256 * s.eng.straps.d + 32768)) s u :=
  ⟨_, actionRow_mixTo hs (hf.trans (setProfile_eq hne)), mixBecomes_mixTo hs _ _ _⟩

theorem sourceAndProfile : SourceAndProfile := by
  refine ⟨fun v n s hs hv hn hne => ?_, fun s hs hle => ?_, fun v n s hs hv hn hne => ?_, fun v n s hs hn hne => ?_,
    fun v s hcalm h => actionRow_of_eq hcalm (actSourceSet_idle h), fun v s hcalm h => actionRow_of_eq hcalm (actProfileSet_idle h)⟩
  · exact ⟨_, s.eng.withSource n, actionRow_mixTo hs ((actSourceSet_eq hv hn).trans (setSource_eq hne)), mixBecomes_mixTo hs _ _ _,
      rfl, Slide.toward_v1 .., Slide.toward_v1 ..⟩
  · have hne : (s.eng.mix.source + 1) % 3 ≠ s.eng.mix.source := by omega
    exact ⟨_, s.eng.withSource _, actionRow_mixTo hs (setSource_eq hne), mixBecomes_mixTo hs _ _ _, rfl⟩
  · exact profileAction hs hne (actProfileSet_eq hv hn)
  · refine profileAction hs hne ?_
    rw [actProfileStep, ← hn, Int.toNat_natCast]

/-! ## Duck and wet levels (R618, R824) -/

/-- An action whose outcome is the settings `m`, with no word of the thermos. -/
theorem actionRow_setMix {s : State} {f : Memory → Engine → Engine} (hs : s.inService) {m : MixRec} (h : f s.caddy s.eng = s.eng.setMix m) :
    actionRow f s = .next { s with eng := { s.eng with evq := [], mix := m, mixChg := s.eng.mixChg ++ [(s.eng.target, m)] } } := by
  have hcalm : s.eng.evq = [] := hs.evq_nil
  rw [actionRow_inService hs (by rw [h]; exact hcalm), h, ← hcalm]
  rfl

/-- The enable of a duck: 0 off, 1 on, 2 the other way (Table 20-11). -/
theorem duckNext_cases (arg : Byte) (b : Bool) : (arg = 0#8 → duckNext arg.toNat b = false) ∧ (arg = 1#8 → duckNext arg.toNat b = true) ∧
    (arg = 2#8 → duckNext arg.toNat b = !b) := by
  refine ⟨?_, ?_, ?_⟩ <;> rintro rfl <;> rfl

theorem actDuck_eq {w a : Nat} (hw : w ≤ 1) (ha : a ≤ 2) (e : Engine) : actDuck w a e = setDuck w a e := by
  rw [actDuck, if_pos ⟨hw, ha⟩]

theorem actWet_eq {i : Nat} (hi : i ≤ 2) (w : W32) (e : Engine) : actWet i w e = setWet i w e := by
  rw [actWet, if_pos hi]

theorem duckAndWet : DuckAndWet := by
  refine ⟨fun arg s hs ha => ⟨⟨duckNext arg.toNat s.eng.mix.duckA, ?_⟩, duckNext arg.toNat s.eng.mix.duckB, ?_⟩,
    fun i w m s hs hi hm => ?_, fun a b w s hcalm ha => ⟨actionRow_of_eq hcalm ?_, actionRow_of_eq hcalm ?_⟩⟩
  · obtain ⟨hoff, hon, htoggle⟩ := duckNext_cases arg s.eng.mix.duckA
    exact ⟨hoff, hon, htoggle, actionRow_setMix hs (actDuck_eq (by decide) ha s.eng)⟩
  · obtain ⟨hoff, hon, htoggle⟩ := duckNext_cases arg s.eng.mix.duckB
    exact ⟨hoff, hon, htoggle, actionRow_setMix hs (actDuck_eq (by decide) ha s.eng)⟩
  · subst hm
    exact actionRow_setMix hs (actWet_eq hi w s.eng)
  · rw [actWet, if_neg (by omega)]
  · rw [actDuck, if_neg (by omega)]

/-- Settles O53: each action is a row that leaves its settings for the target frame, with its word of the thermos due. -/
theorem mixActions : Obligations.MixActions := ⟨volumeAndMute, sourceAndProfile, duckAndWet⟩

end Sys2Proof.Machine
end
